-- ==== Sys2Proof/Word.lean ====
section
/-! DEFINITION. The byte of the Cell Link and nothing else: every other quantity of the HS420 is an exact integer in the
unit of section 0.6 (R1: no result is taken from a narrower width than its formula needs). -/

namespace Sys2Proof

/-- One byte of a Cell Link frame (R184). -/
abbrev Byte := BitVec 8

/-- The 8 bytes of a part tag or of a profile tag, first byte highest: stored as written, never looked into (R19, R153). -/
abbrev Tag8 := BitVec 64

end Sys2Proof
end

