-- ==== Sys2Proof/Config.lean ====
section
/-! DEFINITION. The fixed vocabulary of the HS420 (channels, circuits, trip sources, classes, responses), the capacities of its
queues, and the six configuration groups with their defaults (R39, R26, R66, R90, R111, R128, R150). Values the
spec states no result for are opaque constants: nothing is known of them. -/

namespace Sys2Proof

/-! ### Channels of the converter (R115) -/

inductive Channel where
  | coilI | invP | pyro | flow1 | flow2 | flow3 | qPress | qTemp | coilWater
  deriving DecidableEq, Repr

/-- The channel numbers of R115. -/
def Channel.num : Channel → Nat
  | .coilI => 0 | .invP => 1 | .pyro => 2 | .flow1 => 3 | .flow2 => 4
  | .flow3 => 5 | .qPress => 6 | .qTemp => 7 | .coilWater => 8

/-- The nine channels in number order. -/
def Channel.all : List Channel :=
  [.coilI, .invP, .pyro, .flow1, .flow2, .flow3, .qPress, .qTemp, .coilWater]

/-- The channel after a channel, wrapping from 8 to 0 (R117, R125). -/
def Channel.next : Channel → Channel
  | .coilI => .invP | .invP => .pyro | .pyro => .flow1 | .flow1 => .flow2 | .flow2 => .flow3
  | .flow3 => .qPress | .qPress => .qTemp | .qTemp => .coilWater | .coilWater => .coilI

inductive ChannelClass where
  | urgent | normal | background
  deriving DecidableEq, Repr

/-- The fixed class of each channel (R115). -/
def Channel.cls : Channel → ChannelClass
  | .coilI | .invP | .pyro => .urgent
  | .flow1 | .flow2 | .flow3 | .qPress => .normal
  | .qTemp | .coilWater => .background

/-- One value for each channel. -/
structure PerChannel (α : Type) where
  coilI : α
  invP : α
  pyro : α
  flow1 : α
  flow2 : α
  flow3 : α
  qPress : α
  qTemp : α
  coilWater : α
  deriving DecidableEq, Repr

def PerChannel.get {α : Type} (p : PerChannel α) : Channel → α
  | .coilI => p.coilI | .invP => p.invP | .pyro => p.pyro | .flow1 => p.flow1 | .flow2 => p.flow2
  | .flow3 => p.flow3 | .qPress => p.qPress | .qTemp => p.qTemp | .coilWater => p.coilWater

def PerChannel.set {α : Type} (p : PerChannel α) (c : Channel) (x : α) : PerChannel α :=
  match c with
  | .coilI => { p with coilI := x }
  | .invP => { p with invP := x }
  | .pyro => { p with pyro := x }
  | .flow1 => { p with flow1 := x }
  | .flow2 => { p with flow2 := x }
  | .flow3 => { p with flow3 := x }
  | .qPress => { p with qPress := x }
  | .qTemp => { p with qTemp := x }
  | .coilWater => { p with coilWater := x }

/-- The value of `f` at every channel. -/
def PerChannel.ofFn {α : Type} (f : Channel → α) : PerChannel α :=
  ⟨f .coilI, f .invP, f .pyro, f .flow1, f .flow2, f .flow3, f .qPress, f .qTemp, f .coilWater⟩

/-! ### Quench circuits (section 5.1) -/

inductive Circuit where
  | q1 | q2 | q3
  deriving DecidableEq, Repr

/-- The two circuits whose rings ride on the carriage and have a trail. -/
inductive Ring where
  | q1 | q2
  deriving DecidableEq, Repr

def Ring.circuit : Ring → Circuit
  | .q1 => .q1
  | .q2 => .q2

structure PerCircuit (α : Type) where
  q1 : α
  q2 : α
  q3 : α
  deriving DecidableEq, Repr

def PerCircuit.get {α : Type} (p : PerCircuit α) : Circuit → α
  | .q1 => p.q1 | .q2 => p.q2 | .q3 => p.q3

def PerCircuit.set {α : Type} (p : PerCircuit α) (c : Circuit) (x : α) : PerCircuit α :=
  match c with
  | .q1 => { p with q1 := x }
  | .q2 => { p with q2 := x }
  | .q3 => { p with q3 := x }

structure PerRing (α : Type) where
  q1 : α
  q2 : α
  deriving DecidableEq, Repr

def PerRing.get {α : Type} (p : PerRing α) : Ring → α
  | .q1 => p.q1 | .q2 => p.q2

def PerRing.set {α : Type} (p : PerRing α) (r : Ring) (x : α) : PerRing α :=
  match r with
  | .q1 => { p with q1 := x }
  | .q2 => { p with q2 := x }

/-! ### Trip sources, classes and responses (R131) -/

inductive Source where
  | coilOvercurrent | pyroHigh | inverterFault | inverterLost | coilWaterLow
  | quenchFlowLow1 | quenchFlowLow2 | quenchFlowLow3 | quenchTempHigh | spindleLow
  | followingError | overtravel | trailFull | encoderFault | sensorFault | forced | estop
  deriving DecidableEq, Repr

/-- The source codes of R198. -/
def Source.code : Source → Nat
  | .coilOvercurrent => 0 | .pyroHigh => 1 | .inverterFault => 2 | .inverterLost => 3
  | .coilWaterLow => 4 | .quenchFlowLow1 => 5 | .quenchFlowLow2 => 6 | .quenchFlowLow3 => 7
  | .quenchTempHigh => 8 | .spindleLow => 9 | .followingError => 10 | .overtravel => 11
  | .trailFull => 12 | .encoderFault => 13 | .sensorFault => 14 | .forced => 15 | .estop => 16

/-- The seventeen sources in ascending order of their codes. -/
def Source.all : List Source :=
  [.coilOvercurrent, .pyroHigh, .inverterFault, .inverterLost, .coilWaterLow, .quenchFlowLow1,
    .quenchFlowLow2, .quenchFlowLow3, .quenchTempHigh, .spindleLow, .followingError, .overtravel,
    .trailFull, .encoderFault, .sensorFault, .forced, .estop]

/-- QUENCH_FLOW_LOW_n of circuit Qn (R104). -/
def Circuit.flowLow : Circuit → Source
  | .q1 => .quenchFlowLow1
  | .q2 => .quenchFlowLow2
  | .q3 => .quenchFlowLow3

inductive SourceClass where
  | warn | limit | trip
  deriving DecidableEq, Repr

inductive Response where
  | runout | stop | stopFlood | halt
  deriving DecidableEq, Repr

inductive FaultMode where
  | hold | substitute | fault
  deriving DecidableEq, Repr

inductive CalMode where
  | rotate | all
  deriving DecidableEq, Repr

/-! ### Capacities -/

/-- Capacity of the Step Queue (R28). -/
def queueCap : Nat := 32
/-- Capacity of a quench trail (R93). -/
def trailCap : Nat := 16
/-- Capacity of the record list (R165). -/
def recordCap : Nat := 8
/-- Pages of the Profile Store (R170) and step slots of a page (R19). -/
def pageCount : Nat := 16
def pageSlots : Nat := 40
/-- Window places of a profile (R171). -/
def zonePlaces : Nat := 16
/-- Capacity of the receive buffer, of the BUSY list, and of the output queue for replies (R187, R191). -/
def linkCap : Nat := 4

/-! ### Configuration groups -/

/-- The MACHINE group (R66 and R90). -/
structure MachineCfg where
  accel : Nat
  kp : Nat
  feLimit : Nat
  softLow : Int
  softHigh : Int
  homingSpeed : Nat
  homingStroke : Nat
  reference : Int
  returnSpeed : Nat
  drainSpeed : Nat
  pRated : Nat
  floorShare : Nat
  rampLimit : Nat
  deriving DecidableEq, Repr

def MachineCfg.default : MachineCfg :=
  { accel := 200, kp := 40, feLimit := 2000, softLow := -20000, softHigh := 2300000,
    homingSpeed := 2000, homingStroke := 2400000, reference := 0, returnSpeed := 5000,
    drainSpeed := 2000, pRated := 2500, floorShare := 20, rampLimit := 50 }

/-- The QUENCH group (R111). -/
structure QuenchCfg where
  offset : PerRing Nat
  lead : PerRing Nat
  flowMin : PerCircuit Nat
  proving : Nat
  dropout : Nat
  flood : Nat
  onThreshold : Nat
  offThreshold : Nat
  pumpIdle : Nat
  deriving DecidableEq, Repr

def QuenchCfg.default : QuenchCfg :=
  { offset := ⟨20000, 70000⟩, lead := ⟨150, 150⟩, flowMin := ⟨300, 200, 600⟩, proving := 400,
    dropout := 100, flood := 100, onThreshold := 250, offThreshold := 200, pumpIdle := 300 }

/-- The items of the MEASURE group that each channel has (R128). -/
structure ChannelCfg where
  period : Nat
  burst : Nat
  scale : Nat
  mode : FaultMode
  substitute : Int
  deriving DecidableEq, Repr

/-- The MEASURE group (R128). -/
structure MeasureCfg where
  chan : PerChannel ChannelCfg
  stale : Nat
  relax : Nat
  calPeriod : Nat
  calMode : CalMode
  deriving DecidableEq, Repr

/-- A channel's defaults: its period of R115, its scale of R128, N 4, HOLD, substitute 0. -/
def ChannelCfg.withDefaults (period scale : Nat) : ChannelCfg :=
  { period := period, burst := 4, scale := scale, mode := .hold, substitute := 0 }

def MeasureCfg.default : MeasureCfg :=
  { chan :=
      { coilI := .withDefaults 1 100, invP := .withDefaults 1 100, pyro := .withDefaults 1 25,
        flow1 := .withDefaults 5 80, flow2 := .withDefaults 5 80, flow3 := .withDefaults 5 80,
        qPress := .withDefaults 5 16, qTemp := .withDefaults 50 2,
        coilWater := .withDefaults 50 80 },
    stale := 3, relax := 4, calPeriod := 1000, calMode := .rotate }

/-- The TRIP group (R150): the classes and responses that R131 lets be configured, cap levels and thresholds. -/
structure TripCfg where
  classCoilOver : SourceClass
  classPyro : SourceClass
  classFlow : PerCircuit SourceClass
  classQTemp : SourceClass
  classSensor : SourceClass
  respCoilOver : Response
  respPyro : Response
  respInvFault : Response
  respInvLost : Response
  respCoilWater : Response
  respFlow : PerCircuit Response
  respQTemp : Response
  respSpindle : Response
  respSensor : Response
  respForced : Response
  capCoilOver : Nat
  capPyro : Nat
  iMax : Nat
  tMax : Nat
  waterMin : Nat
  qTempLimit : Nat
  deriving DecidableEq, Repr

def TripCfg.default : TripCfg :=
  { classCoilOver := .limit, classPyro := .warn, classFlow := ⟨.trip, .trip, .trip⟩,
    classQTemp := .warn, classSensor := .trip, respCoilOver := .stopFlood, respPyro := .runout,
    respInvFault := .stopFlood, respInvLost := .stopFlood, respCoilWater := .stopFlood,
    respFlow := ⟨.stopFlood, .stopFlood, .stop⟩, respQTemp := .runout, respSpindle := .runout,
    respSensor := .stopFlood, respForced := .stopFlood, capCoilOver := 80, capPyro := 70,
    iMax := 4000, tMax := 1050, waterMin := 150, qTempLimit := 40 }

/-- The class of a source: configured where R131 gives a choice, TRIP elsewhere. -/
def TripCfg.classOf (c : TripCfg) : Source → SourceClass
  | .coilOvercurrent => c.classCoilOver
  | .pyroHigh => c.classPyro
  | .quenchFlowLow1 => c.classFlow.q1
  | .quenchFlowLow2 => c.classFlow.q2
  | .quenchFlowLow3 => c.classFlow.q3
  | .quenchTempHigh => c.classQTemp
  | .sensorFault => c.classSensor
  | .inverterFault | .inverterLost | .coilWaterLow | .spindleLow | .followingError | .overtravel
  | .trailFull | .encoderFault | .forced | .estop => .trip

/-- The response of a source: configured, or the fixed one of R131. -/
def TripCfg.responseOf (c : TripCfg) : Source → Response
  | .coilOvercurrent => c.respCoilOver
  | .pyroHigh => c.respPyro
  | .inverterFault => c.respInvFault
  | .inverterLost => c.respInvLost
  | .coilWaterLow => c.respCoilWater
  | .quenchFlowLow1 => c.respFlow.q1
  | .quenchFlowLow2 => c.respFlow.q2
  | .quenchFlowLow3 => c.respFlow.q3
  | .quenchTempHigh => c.respQTemp
  | .spindleLow => c.respSpindle
  | .sensorFault => c.respSensor
  | .forced => c.respForced
  | .followingError | .overtravel | .trailFull => .stopFlood
  | .encoderFault | .estop => .halt

/-- The FLOW group (R39). -/
structure FlowCfg where
  low : Nat
  high : Nat
  deriving DecidableEq, Repr

/-- The six configuration groups (R193). -/
structure ConfigGroups where
  machine : MachineCfg
  quench : QuenchCfg
  measure : MeasureCfg
  trip : TripCfg
  flow : FlowCfg
  /-- PRESTART time in s (R26). -/
  prestart : Nat
  deriving DecidableEq, Repr

def ConfigGroups.default : ConfigGroups :=
  { machine := .default, quench := .default, measure := .default, trip := .default,
    flow := ⟨8, 24⟩, prestart := 15 }

/-! ### Free values -/

/-- DESIGN CHOICE (log 7): the count of the encoder after it has left its signed 32-bit value, from where it would stand; R48 says only
that this does not come in use. Its low 32 bits are taken. -/
opaque Config.countBeyond : Int → Int

/-- DESIGN CHOICE (log 19): what an unsigned field of so many bytes holds for a number it has no room for; the spec does not say. -/
opaque Config.overWide : Nat → Nat → Nat

/-- DESIGN CHOICE (log 19): the same for a signed field of so many values. -/
opaque Config.overWideSigned : Nat → Int → Nat

end Sys2Proof
end

