-- ==== Sys2Proof/Syntax.lean ====
section
/-! DEFINITION. The commands of the HS420: one constructor of `Instr` for each row of spec/opcode_table.json, and the raw
records a request carries (R197). Operands are the values as the sender gives them; which of them are legal is decided by
the meaning, as the spec has it (INVALID, RANGE and the rest), not by the syntax. -/

namespace Sys2Proof

/-- A step record as it stands in STEP and PROFILE-DATA (R197): every field of the layout, whatever its kind byte uses. -/
structure StepRecord where
  kind : Nat
  zone : Nat
  /-- quench byte, Q1 + 3 × Q2 -/
  quench : Nat
  /-- mark number or splice id -/
  number : Nat
  endPos : Int
  /-- speed (MOVE, HEAT) or duration (DWELL) -/
  speed : Nat
  /-- 0xFFFF: absent -/
  spin : Nat
  /-- energy density (HEAT), power (DWELL) or duration (HOLDOFF, SPRAY) -/
  last : Nat
  deriving DecidableEq, Repr

/-- A zone window record (R197). -/
structure WindowRecord where
  kind : Nat
  low : Nat
  high : Nat
  deriving DecidableEq, Repr

/-- A record of PROFILE-DATA (R174): a window for a zone index or a step for a step index. -/
inductive DataRecord where
  | zone (index : Nat) (window : WindowRecord)
  | step (index : Nat) (record : StepRecord)
  deriving DecidableEq, Repr

/-- A request of the Cell Link without its tag (10.8, kind codes; CONFIGURE by group, INHIBIT by its payload byte). -/
inductive Request where
  | status
  | configureMachine (items : List Int)
  | configureQuench (items : List Int)
  | configureMeasure (items : List Int)
  | configureTrip (items : List Int)
  | configureFlow (items : List Int)
  | configurePrestart (items : List Int)
  | restart
  | home
  | moveTo (target : Int) (speed : Nat)
  | stop
  | startProfile (page : Nat) (part : Tag8)
  | startStream (part : Tag8) (windows : List WindowRecord)
  | step (record : StepRecord)
  | trim (t s method : Nat)
  | inhibitOn
  | inhibitOff
  | forceTrip
  | clearTrip
  | profileOpen (page size zones steps : Nat) (tag : Tag8)
  | profileData (page : Nat) (records : List DataRecord)
  | profileClose (page : Nat)
  | profileErase (page : Nat)
  | profileList
  | recordGet (number : Nat)
  | recordRelease (number : Nat)
  deriving DecidableEq, Repr

/-- The commands: one for each row of spec/opcode_table.json. A request carries its tag (R185). -/
inductive Instr where
  | status (tag : Byte)
  | configureMachine (tag : Byte) (items : List Int)
  | configureQuench (tag : Byte) (items : List Int)
  | configureMeasure (tag : Byte) (items : List Int)
  | configureTrip (tag : Byte) (items : List Int)
  | configureFlow (tag : Byte) (items : List Int)
  | configurePrestart (tag : Byte) (items : List Int)
  | restart (tag : Byte)
  | home (tag : Byte)
  | moveTo (tag : Byte) (target : Int) (speed : Nat)
  | stop (tag : Byte)
  | startProfile (tag : Byte) (page : Nat) (part : Tag8)
  | startStream (tag : Byte) (part : Tag8) (windows : List WindowRecord)
  | step (tag : Byte) (record : StepRecord)
  | trim (tag : Byte) (t sp method : Nat)
  | inhibitOn (tag : Byte)
  | inhibitOff (tag : Byte)
  | forceTrip (tag : Byte)
  | clearTrip (tag : Byte)
  | profileOpen (tag : Byte) (page size zones steps : Nat) (name : Tag8)
  | profileData (tag : Byte) (page : Nat) (records : List DataRecord)
  | profileClose (tag : Byte) (page : Nat)
  | profileErase (tag : Byte) (page : Nat)
  | profileList (tag : Byte)
  | recordGet (tag : Byte) (number : Nat)
  | recordRelease (tag : Byte) (number : Nat)
  | reset
  | frameReceived
  | receiveGapTimeout
  | dispatch
  | frameSent
  /-- Encoder counts since the last sample, tachometer rpm, and the levels of the three switches (R48, R65, R60, R62). -/
  | positionSample (counts : Int) (rpm : Nat) (refSwitch lowSwitch highSwitch : Bool)
  | powerUpdate
  | stepTimerExpiry
  | prestartTimeout
  | requestTimerExpiry (channel : Channel)
  | conversionComplete (code : Nat)
  | calibrationTimerExpiry
  | provingTimerExpiry (circuit : Circuit)
  | dropoutTimerExpiry (circuit : Circuit)
  | floodTimerExpiry
  | pumpIdleTimerExpiry
  | coilWaterTimerExpiry
  | lowCountReached
  | readyInputChange (level : Bool)
  | faultInputChange (level : Bool)
  | emergencyStopInput (level : Bool)
  | encoderFaultInput (level : Bool)
  | stoppingComplete
  | arrived
  | returned
  | turnStoppedActivation
  | enterRunning
  | admission
  | loaderAppend
  | byteReceived (byte : Byte)
  deriving DecidableEq, Repr

/-- The request and the tag of a request command; none for an event. -/
def Instr.request : Instr → Option (Byte × Request)
  | .status t => some (t, .status)
  | .configureMachine t xs => some (t, .configureMachine xs)
  | .configureQuench t xs => some (t, .configureQuench xs)
  | .configureMeasure t xs => some (t, .configureMeasure xs)
  | .configureTrip t xs => some (t, .configureTrip xs)
  | .configureFlow t xs => some (t, .configureFlow xs)
  | .configurePrestart t xs => some (t, .configurePrestart xs)
  | .restart t => some (t, .restart)
  | .home t => some (t, .home)
  | .moveTo t p v => some (t, .moveTo p v)
  | .stop t => some (t, .stop)
  | .startProfile t p g => some (t, .startProfile p g)
  | .startStream t g ws => some (t, .startStream g ws)
  | .step t r => some (t, .step r)
  | .trim t a b m => some (t, .trim a b m)
  | .inhibitOn t => some (t, .inhibitOn)
  | .inhibitOff t => some (t, .inhibitOff)
  | .forceTrip t => some (t, .forceTrip)
  | .clearTrip t => some (t, .clearTrip)
  | .profileOpen t p z n k g => some (t, .profileOpen p z n k g)
  | .profileData t p rs => some (t, .profileData p rs)
  | .profileClose t p => some (t, .profileClose p)
  | .profileErase t p => some (t, .profileErase p)
  | .profileList t => some (t, .profileList)
  | .recordGet t n => some (t, .recordGet n)
  | .recordRelease t n => some (t, .recordRelease n)
  | .reset | .frameReceived | .receiveGapTimeout | .dispatch | .frameSent
  | .positionSample _ _ _ _ _ | .powerUpdate | .stepTimerExpiry | .prestartTimeout
  | .requestTimerExpiry _ | .conversionComplete _ | .calibrationTimerExpiry
  | .provingTimerExpiry _ | .dropoutTimerExpiry _ | .floodTimerExpiry | .pumpIdleTimerExpiry
  | .coilWaterTimerExpiry | .lowCountReached | .readyInputChange _ | .faultInputChange _
  | .emergencyStopInput _ | .encoderFaultInput _ | .stoppingComplete | .arrived | .returned
  | .turnStoppedActivation | .enterRunning | .admission | .loaderAppend | .byteReceived _ => none

end Sys2Proof
end

