-- ==== Sys2Proof/Decode.lean ====
section
/-! DEFINITION. The reading of a table word. spec/opcode_table.json gives no bits to any of its 56 rows (98_reader.md:
n_rows_with_fixed 0, n_rows_with_fields 0): the HS420 is a block that takes commands, and a request is spelled by its
frame on the Cell Link, which Machine/Operands.lean reads. So no word spells a command. -/

namespace Sys2Proof

/-- The command that a word spells by the table's bits: none, because the table gives no row any bits. -/
def decodeTableWord (_nbits _w : Nat) : Option Instr := none

end Sys2Proof
end

