-- ==== Sys2Proof/Machine/State.lean ====
section
/-! DEFINITION. The state of the HS420 as plain data, block by block (0.2), the reasons a step can stop, and the state after
RESET (R47, R67, R91, R113, R129, R152, R169, R183, R196). INVENTORY.md lists every field with its rule. -/

namespace Sys2Proof.Machine

/-! ### Scan programs (Chapter 1) -/

inductive Dir where
  | forward | reverse
  deriving DecidableEq, Repr

/-- Quench setting of a motion step (R6). -/
inductive QSetting where
  | keep | on | off
  deriving DecidableEq, Repr

/-- A step of a scan program: the nine kinds of 1.3 with the fields each kind has. -/
inductive ScanStep where
  | move (stop : Int) (speed : Nat) (q1 q2 : QSetting)
  | heat (stop : Int) (speed energy zone : Nat) (q1 q2 : QSetting) (spin : Option Nat)
  | dwell (power duration zone : Nat) (spin : Option Nat)
  | holdoff (duration : Nat)
  | spray (duration : Nat)
  | mark (number : Nat)
  | splice (id : Nat)
  | resume
  | finish
  deriving DecidableEq, Repr

inductive WindowKind where
  | density | total
  deriving DecidableEq, Repr

/-- Zone window (R18); a limit of 0 sets no bound. -/
structure Window where
  kind : WindowKind
  low : Nat
  high : Nat
  deriving DecidableEq, Repr

/-- Where a step came from (R17). -/
inductive Origin where
  | profile | link
  deriving DecidableEq, Repr

/-! ### Scan Sequencer (Chapter 2) -/

inductive SeqState where
  | unreferenced | idle | homing | positioning | prestart | running | runout | tripping | tripped
  deriving DecidableEq, Repr

inductive EndCause where
  | complete | stopped | starved | supplyLost | prestartTimeout | programError | tripped
  deriving DecidableEq, Repr

/-- Causes a STATE notice carries (R20, R198). -/
inductive Cause where
  | home | homed | homeFailed | moveTo | arrived | stopped | start | ready
  | scanEnd (c : EndCause)
  | cleared | restart | trip | reset
  deriving DecidableEq, Repr

inductive TurnPhase where
  | none | drain | stopping | return
  deriving DecidableEq, Repr

inductive StepSource where
  | none | profile | link
  deriving DecidableEq, Repr

inductive SegKind where
  | stream | splice
  deriving DecidableEq, Repr

inductive FlowState where
  | flowing | held | released
  deriving DecidableEq, Repr

inductive TrimMethod where
  | immediate | step | zone
  deriving DecidableEq, Repr

inductive LoaderState where
  | running | atSplice | exhausted
  deriving DecidableEq, Repr

structure Loader where
  page : Nat
  index : Nat
  state : LoaderState
  deriving DecidableEq, Repr

/-- A step waiting in the Step Queue (R28). -/
structure QStep where
  step : ScanStep
  origin : Origin
  index : Nat
  deriving DecidableEq, Repr

/-- An admitted step, in Next or Active: nominal start and end and direction (R3), turn mark (R30), attached mark numbers (R32). -/
structure Admitted where
  step : ScanStep
  origin : Origin
  index : Nat
  start : Int
  stop : Int
  dir : Option Dir
  turn : Bool
  marks : List Nat
  deriving DecidableEq, Repr

structure Shadow where
  t : Nat
  s : Nat
  method : TrimMethod
  deriving DecidableEq, Repr

/-- Section 2.1. A timer is none when stopped. -/
structure Seq where
  state : SeqState
  turnPhase : TurnPhase
  queue : List QStep
  next : Option Admitted
  active : Option Admitted
  source : StepSource
  segKind : Option SegKind
  segClosed : Bool
  programEnd : Bool
  loader : Option Loader
  passDir : Option Dir
  scanStart : Int
  /-- nominal end of the step admitted last; the scan start before the first (R3) -/
  nominal : Int
  zoneCount : Nat
  lastZone : Option Nat
  linkCount : Nat
  flow : FlowState
  trimT : Nat
  trimS : Nat
  shadow : Option Shadow
  /-- expiries still to come (R34) -/
  stepTimer : Option Nat
  /-- s, as it was started with (R26) -/
  prestartTimer : Option Nat
  /-- 10 ms ticks since START (R34) -/
  scanClock : Option Nat
  lastEnd : Option EndCause
  /-- a STOP was taken in this HOMING or POSITIONING (R27) -/
  stopTaken : Bool
  /-- the spindle choice of a stream's PRESTART is made (R24) -/
  spinTaken : Bool
  /-- commanded speed of the most recent HEAT step of the pass (R46) -/
  heatSpeed : Option Nat
  deriving DecidableEq, Repr

/-! ### Travel Unit (Chapter 3) -/

inductive TravelMode where
  | disabled | hold | seek | target | scan | drain | stopping
  deriving DecidableEq, Repr

inductive Braking where
  | none | continue | brake
  deriving DecidableEq, Repr

/-- The stop that a motion step activated while the generator brakes lets it complete first (R57): none, to rest wherever
that is, or onto the stop point of the step before. -/
inductive Finish where
  | none | rest | at (stop : Int)
  deriving DecidableEq, Repr

structure Travel where
  position : Int
  /-- the 16 positions before the present one, oldest first -/
  history : List Int
  /-- measured speed, 0.01 mm/s -/
  speed : Int
  still : Nat
  referenced : Bool
  mode : TravelMode
  /-- planned position, 0.001 µm -/
  plan : Int
  /-- planned speed, µm/s, FORWARD positive -/
  planSpeed : Int
  /-- 0.01 mm/s -/
  targetSpeed : Nat
  stopPoint : Option Int
  dir : Option Dir
  finish : Finish
  decision : Braking
  driveEnable : Bool
  speedCommand : Int
  spindleCommand : Nat
  rpm : Nat
  lowCount : Nat
  homingStart : Option Int
  switchFound : Bool
  /-- the MOVE-TO arrival has been seen at a sample and ARRIVED is due (R63) -/
  arrivalSeen : Bool
  overSoft : Bool
  overLow : Bool
  overHigh : Bool
  followingError : Bool
  spindleLow : Bool
  encoderFault : Bool
  deriving DecidableEq, Repr

/-! ### Power Unit (Chapter 4) -/

inductive Ceiling where
  | none | saturated | limited
  deriving DecidableEq, Repr

structure Power where
  /-- P_out, 0.1 kW -/
  pOut : Nat
  ceiling : Ceiling
  underFloor : Bool
  /-- correction accumulator A -/
  acc : Int
  inhibit : Bool
  enable : Bool
  readySeen : Bool
  /-- setpoint code as last sent -/
  code : Nat
  coilOver : Bool
  pyroHigh : Bool
  deriving DecidableEq, Repr

/-! ### Quench Unit (Chapter 5) -/

structure TrailEntry where
  pos : Int
  on : Bool
  deriving DecidableEq, Repr

structure Trail where
  entries : List TrailEntry
  fullMark : Bool
  deriving DecidableEq, Repr

inductive Watch where
  | closed | proving | proved | low
  deriving DecidableEq, Repr

/-- Valve, flow watch and timers of one circuit; a timer is none when stopped, else the ms it was started with. -/
structure CircuitState where
  valve : Bool
  watch : Watch
  proving : Option Nat
  dropout : Option Nat
  deriving DecidableEq, Repr

inductive Q3Owner where
  | none | spray | flood
  deriving DecidableEq, Repr

structure Quench where
  trail : PerRing Trail
  circuit : PerCircuit CircuitState
  q3Owner : Q3Owner
  floodTimer : Option Nat
  supplyReady : Bool
  pump : Bool
  idleTimer : Option Nat
  /-- an idle expiry was put off until the running flood ends (R109) -/
  idleDeferred : Bool
  deriving DecidableEq, Repr

/-! ### Measurement Sequencer (Chapter 6) -/

inductive BurstKind where
  | sample | calibration
  deriving DecidableEq, Repr

structure Burst where
  channel : Channel
  kind : BurstKind
  /-- conversions of the whole burst, N or 16 -/
  length : Nat
  /-- conversions still to come -/
  left : Nat
  sum : Nat
  rail : Bool
  deriving DecidableEq, Repr

/-- A waiting request; `promoted` once its pass count has reached the relax limit (R118). -/
structure Waiting where
  channel : Channel
  kind : BurstKind
  passes : Nat
  promoted : Bool
  deriving DecidableEq, Repr

structure ChannelRec where
  published : Option Int
  lastGood : Option Int
  age : Option Nat
  held : Nat
  offset : Int
  calibrated : Bool
  sensorFault : Bool
  /-- the request timer runs with this period, ms -/
  timer : Nat
  deriving DecidableEq, Repr

structure Meas where
  converter : Option Burst
  /-- in order of arrival -/
  waiting : List Waiting
  ptrUrgent : Channel
  ptrNormal : Channel
  ptrBackground : Channel
  chan : PerChannel ChannelRec
  /-- the calibration timer runs with this period, ms -/
  calTimer : Nat
  calPointer : Channel
  /-- the owed set, in channel order -/
  owed : List Channel
  deriving DecidableEq, Repr

/-! ### Trip Unit (Chapter 7) -/

structure TripRecord where
  cause : Source
  channel : Option Channel
  state : SeqState
  position : Int
  speed : Int
  pOut : Nat
  active : Option (Origin × Nat)
  /-- 10 ms ticks; absent outside a scan -/
  time : Option Nat
  /-- the set of later causes, in code order -/
  later : List Source
  count : Nat
  deriving DecidableEq, Repr

structure TripUnit where
  coilWaterLow : Bool
  quenchTempHigh : Bool
  coilWaterTimer : Bool
  latch : Bool
  response : Option Response
  /-- the current response has completed (R144) -/
  responseDone : Bool
  trailsSeen : Bool
  stoppedSeen : Bool
  floodSeen : Bool
  record : Option TripRecord
  deriving DecidableEq, Repr

/-! ### Zone Accounting (Chapter 8) -/

structure ZoneAcc where
  /-- 0.1 J -/
  energy : Nat
  length : Nat
  extent : Option (Int × Int)
  peak : Nat
  maxTemp : Option Int
  satDist : Nat
  limDist : Nat
  saturated : Bool
  limited : Bool
  quenchShort : Bool
  warn : Bool
  deriving DecidableEq, Repr

structure ZoneEntry where
  window : Window
  acc : ZoneAcc
  deriving DecidableEq, Repr

structure CurrentZone where
  zone : Nat
  heat : Bool
  deriving DecidableEq, Repr

structure OpenRecord where
  number : Nat
  part : Tag8
  page : Option Nat
  source : Origin
  warn : Bool
  zones : List ZoneEntry
  current : Option CurrentZone
  lastZone : Option Nat
  ceiling : Ceiling
  pOut : Nat
  powered : Bool
  deriving DecidableEq, Repr

inductive Verdict where
  | pass | reject | notRun
  deriving DecidableEq, Repr

structure ZoneSummary where
  zone : Nat
  /-- J -/
  energy : Nat
  length : Nat
  density : Option Nat
  peak : Nat
  maxTemp : Option Int
  satDist : Nat
  limDist : Nat
  extent : Option (Int × Int)
  outLow : Bool
  outHigh : Bool
  saturated : Bool
  limited : Bool
  quenchShort : Bool
  interrupted : Bool
  warn : Bool
  deriving DecidableEq, Repr

structure PartRecord where
  number : Nat
  part : Tag8
  page : Option Nat
  source : Origin
  endCause : EndCause
  verdict : Verdict
  warn : Bool
  scanTime : Nat
  /-- J -/
  total : Nat
  zones : List ZoneSummary
  trip : Option TripRecord
  deriving DecidableEq, Repr

structure Zones where
  closed : List PartRecord
  openRec : Option OpenRecord
  nextNumber : Nat
  deriving DecidableEq, Repr

/-! ### Profile Store (Chapter 9) -/

inductive PageState where
  | free | opened | written
  deriving DecidableEq, Repr

structure Header where
  tag : Tag8
  size : Nat
  zones : Nat
  steps : Nat
  deriving DecidableEq, Repr

structure Page where
  state : PageState
  owner : Option Nat
  slots : List (Option ScanStep)
  header : Option Header
  windows : List (Option Window)
  deriving DecidableEq, Repr

structure Store where
  pages : List Page
  zoneMarks : List Bool
  stepMarks : List Bool
  inUse : Option Nat
  deriving DecidableEq, Repr

/-! ### Cell Link (Chapter 10) -/

inductive ResultCode where
  | ok | clamped | replaced | busy | badKind | badLength | state | notHomed | notFound | recordsFull
  | invalid | source | queueFull | stillPresent | inUse | align | occupied | openProfile | size
  | range | incomplete
  deriving DecidableEq, Repr

/-- A request in the receive buffer: as its frame carried it (R187). -/
structure RawRequest where
  kind : Byte
  tag : Byte
  payload : List Byte
  deriving DecidableEq, Repr

/-- A BUSY answer owed: the kind and tag of the request refused (R187). -/
structure BusyAnswer where
  kind : Byte
  tag : Byte
  deriving DecidableEq, Repr

structure Reply where
  kind : Byte
  tag : Byte
  result : ResultCode
  payload : List Byte
  deriving DecidableEq, Repr

/-- The six kinds of notice with what they carry (R192). -/
inductive Notice where
  | flow (go : Bool)
  | splice (id : Nat)
  | mark (number : Nat)
  | state (state : SeqState) (cause : Cause) (source : Option Source)
  | trip (source : Source) (channel : Option Channel)
  | record (number : Nat)
  deriving DecidableEq, Repr

inductive OutFrame where
  | reply (r : Reply)
  | notice (n : Notice)
  deriving DecidableEq, Repr

structure Link where
  rxBytes : List Byte
  rxBuffer : List RawRequest
  busy : List BusyAnswer
  out : List OutFrame
  sending : Option OutFrame
  deriving DecidableEq, Repr

/-- Levels of the discrete input lines that are read when they change (0.1). -/
structure Inputs where
  ready : Bool
  fault : Bool
  estop : Bool
  encoder : Bool
  deriving DecidableEq, Repr

/-! ### The whole part -/

structure State where
  cfg : ConfigGroups
  seq : Seq
  travel : Travel
  power : Power
  quench : Quench
  meas : Meas
  trip : TripUnit
  zones : Zones
  store : Store
  link : Link
  inputs : Inputs
  /-- the model's own: commands waiting, first in first out -/
  pending : List Instr
  deriving DecidableEq, Repr

/-- Reasons a step stops with a fault. There is none: every condition of the spec ends in a reply, a notice, a trip or a
record, which are state. Nobody raises it; safe. -/
inductive Fault where
  deriving DecidableEq, Repr

/-- Reasons a step is refused. -/
inductive Refusal where
  /-- Raised by `exec`'s arm of a command that has no meaning yet; safe, because nothing is claimed of it. -/
  | notModelled (mnemonic : String)
  deriving DecidableEq, Repr

/-! ### The values after RESET -/

/-- R47. -/
def Seq.reset : Seq :=
  { state := .unreferenced, turnPhase := .none, queue := [], next := none, active := none,
    source := .none, segKind := none, segClosed := false, programEnd := false, loader := none,
    passDir := none, scanStart := 0, nominal := 0, zoneCount := 0, lastZone := none,
    linkCount := 0, flow := .flowing, trimT := 1000, trimS := 1000, shadow := none,
    stepTimer := none, prestartTimer := none, scanClock := none, lastEnd := none,
    stopTaken := false, spinTaken := false, heatSpeed := none }

/-- R67. -/
def Travel.reset : Travel :=
  { position := 0, history := List.replicate 16 0, speed := 0, still := 20, referenced := false,
    mode := .disabled, plan := 0, planSpeed := 0, targetSpeed := 0, stopPoint := none,
    dir := none, finish := .none, decision := .none, driveEnable := false, speedCommand := 0,
    spindleCommand := 0, rpm := 0, lowCount := 0, homingStart := none, switchFound := false,
    arrivalSeen := false, overSoft := false, overLow := false, overHigh := false,
    followingError := false, spindleLow := false, encoderFault := false }

/-- R91. -/
def Power.reset : Power :=
  { pOut := 0, ceiling := .none, underFloor := false, acc := 0, inhibit := false,
    enable := false, readySeen := false, code := 0, coilOver := false, pyroHigh := false }

def CircuitState.closed : CircuitState :=
  { valve := false, watch := .closed, proving := none, dropout := none }

def Trail.empty : Trail := { entries := [], fullMark := false }

/-- R113. -/
def Quench.reset : Quench :=
  { trail := ⟨.empty, .empty⟩, circuit := ⟨.closed, .closed, .closed⟩, q3Owner := .none,
    floodTimer := none, supplyReady := false, pump := false, idleTimer := none,
    idleDeferred := false }

/-- A channel's record after RESET or RESTART: no value yet, its request timer started (R129). -/
def ChannelRec.reset (period : Nat) : ChannelRec :=
  { published := none, lastGood := none, age := none, held := 0, offset := 0,
    calibrated := true, sensorFault := false, timer := period }

/-- R129, with the MEASURE group in force. -/
def Meas.reset (c : MeasureCfg) : Meas :=
  { converter := none, waiting := [], ptrUrgent := .coilI, ptrNormal := .coilI,
    ptrBackground := .coilI, chan := .ofFn fun ch => .reset (c.chan.get ch).period,
    calTimer := c.calPeriod, calPointer := .coilI, owed := [] }

/-- R152. -/
def TripUnit.reset : TripUnit :=
  { coilWaterLow := false, quenchTempHigh := false, coilWaterTimer := false, latch := false,
    response := none, responseDone := false, trailsSeen := false, stoppedSeen := false,
    floodSeen := false, record := none }

/-- R169. -/
def Zones.reset : Zones := { closed := [], openRec := none, nextNumber := 1 }

/-- A page that belongs to no profile (R170, R171). -/
def Page.free : Page :=
  { state := .free, owner := none, slots := List.replicate pageSlots none, header := none,
    windows := List.replicate zonePlaces none }

/-- R183. -/
def Store.reset : Store :=
  { pages := List.replicate pageCount .free, zoneMarks := List.replicate zonePlaces false,
    stepMarks := List.replicate (8 * pageSlots) false, inUse := none }

/-- R196, first two sentences. -/
def Link.empty : Link :=
  { rxBytes := [], rxBuffer := [], busy := [], out := [], sending := none }

/-- R196: once the part is running the STATE notice of cause RESET is placed, and the idle transmitter starts it (R191). -/
def Link.reset : Link :=
  { Link.empty with sending := some (.notice (.state .unreferenced .reset none)) }

/-- DESIGN CHOICE (log 10): the input lines at power-on. -/
def Inputs.quiet : Inputs := { ready := false, fault := false, estop := false, encoder := false }

/-- The part right after RESET with these levels on its input lines, before a trip source present at RESET is taken (R152; an active
encoder fault input makes its source present at once, log 9). -/
def State.afterReset (i : Inputs) (pending : List Instr) : State :=
  { cfg := .default, seq := .reset, travel := { Travel.reset with encoderFault := i.encoder }, power := .reset, quench := .reset,
    meas := .reset MeasureCfg.default, trip := .reset, zones := .reset, store := .reset,
    link := .reset, inputs := i, pending := pending }

/-- The machine right after RESET, no command waiting. -/
def State.reset : State := .afterReset .quiet []

end Sys2Proof.Machine
end

