-- ==== Sys2Proof/Machine/Bytes.lean ====
section
/-! DEFINITION. Byte order and frame check of the Cell Link: every field of more than one byte goes high byte first, signed
fields in two's complement (R184); the check of R185. -/

namespace Sys2Proof.Machine

/-- The low byte of a number. -/
def byteOf (n : Nat) : Byte := BitVec.ofNat 8 n

/-- 2-byte field, high byte first (R184); what it holds for a number too large is open (log 19). -/
def be2 (n : Nat) : List Byte :=
  let m := if n < 65536 then n else Config.overWide 2 n
  [byteOf (m / 256), byteOf m]

def be3 (n : Nat) : List Byte := [byteOf (n / 65536), byteOf (n / 256), byteOf n]

/-- 4-byte field; what it holds for a number too large is open (log 19). -/
def be4 (n : Nat) : List Byte :=
  let m := if n < 4294967296 then n else Config.overWide 4 n
  [byteOf (m / 16777216), byteOf (m / 65536), byteOf (m / 256), byteOf m]

/-- Two's complement of a signed value in a field that holds `range` values; open for a value outside them (R184, log 19). -/
def twos (range : Nat) (x : Int) : Nat :=
  if -(range : Int) ≤ 2 * x ∧ 2 * x < range then (x % range).toNat
  else Config.overWideSigned range x % range

/-- 4-byte signed field. -/
def beS4 (x : Int) : List Byte := be4 (twos 4294967296 x)

/-- 2-byte signed field (max surface temperature of a zone summary). -/
def beS2 (x : Int) : List Byte := be2 (twos 65536 x)

/-- 8 bytes of a tag. -/
def be8 (t : Tag8) : List Byte := be4 (t.toNat / 4294967296) ++ be4 (t.toNat % 4294967296)

def u16 (a b : Byte) : Nat := a.toNat * 256 + b.toNat

def u32 (a b c d : Byte) : Nat := u16 a b * 65536 + u16 c d

/-- 4-byte signed field read (R184). -/
def s32 (a b c d : Byte) : Int :=
  if u32 a b c d < 2147483648 then u32 a b c d else (u32 a b c d : Int) - 4294967296

def tag8 (a b c d e f g h : Byte) : Tag8 := BitVec.ofNat 64 (u32 a b c d * 4294967296 + u32 e f g h)

/-- One bit through the check register, polynomial 0x1021 (R185). -/
def crcBit (reg : BitVec 16) (bit : Bool) : BitVec 16 :=
  if reg.msb != bit then (reg <<< 1) ^^^ 0x1021#16 else reg <<< 1

/-- One byte through the check register, most significant bit first (R185). -/
def crcByte (reg : BitVec 16) (b : Byte) : BitVec 16 :=
  [7, 6, 5, 4, 3, 2, 1, 0].foldl (fun r i => crcBit r (b.getLsbD i)) reg

/-- The frame check over the length bytes and the body: register starting at 0xFFFF, not inverted (R185). -/
def crc (bytes : List Byte) : BitVec 16 := bytes.foldl crcByte 0xFFFF#16

/-- The start byte of a frame (R185). -/
def startByte : Byte := 0xA5#8

/-- A whole frame: start byte, length, body, check (R185). -/
def frameBytes (kind tag : Byte) (payload : List Byte) : List Byte :=
  let body := kind :: tag :: payload
  let checked := be2 body.length ++ body
  startByte :: (checked ++ be2 (crc checked).toNat)

end Sys2Proof.Machine
end

