-- ==== Sys2Proof/Machine/Ops.lean ====
section
/-! DEFINITION. Operations that several blocks share: the update of one block of State, the rounding of R1, and the placing of
replies and notices in the output queue of the Cell Link (R188, R191, R192). -/

namespace Sys2Proof.Machine

/-! ### Updating one block -/

def State.onSeq (s : State) (f : Seq → Seq) : State := { s with seq := f s.seq }
def State.onTravel (s : State) (f : Travel → Travel) : State := { s with travel := f s.travel }
def State.onPower (s : State) (f : Power → Power) : State := { s with power := f s.power }
def State.onQuench (s : State) (f : Quench → Quench) : State := { s with quench := f s.quench }
def State.onMeas (s : State) (f : Meas → Meas) : State := { s with meas := f s.meas }
def State.onTrip (s : State) (f : TripUnit → TripUnit) : State := { s with trip := f s.trip }
def State.onZones (s : State) (f : Zones → Zones) : State := { s with zones := f s.zones }
def State.onStore (s : State) (f : Store → Store) : State := { s with store := f s.store }
def State.onLink (s : State) (f : Link → Link) : State := { s with link := f s.link }
def State.onInputs (s : State) (f : Inputs → Inputs) : State := { s with inputs := f s.inputs }
def State.onCfg (s : State) (f : ConfigGroups → ConfigGroups) : State := { s with cfg := f s.cfg }

/-! ### Arithmetic -/

/-- round(n / d): to the nearest integer, halves away from zero (R1). -/
def roundDiv (n : Int) (d : Nat) : Int :=
  if 0 ≤ n then (2 * n + d) / (2 * d : Nat) else -((2 * (-n) + d) / (2 * d : Nat))

/-- trunc(n / d): toward zero (R1). -/
def truncDiv (n : Int) (d : Nat) : Int := n.tdiv d

/-- Held to lo..hi. -/
def clampInt (lo hi x : Int) : Int := max lo (min hi x)

def clampNat (lo hi x : Nat) : Nat := max lo (min hi x)

/-- Binary digits of the integer square root, from 2^(k-1) down, above what `acc` already has. -/
def isqrtGo : Nat → Nat → Nat → Nat
  | 0, _, acc => acc
  | k + 1, n, acc => isqrtGo k n (if (acc + 2 ^ k) * (acc + 2 ^ k) ≤ n then acc + 2 ^ k else acc)

/-- floor(√n), for the cap of R52. -/
def isqrt (n : Nat) : Nat := isqrtGo (n.log2 / 2 + 1) n 0

/-- `cur` moved toward `target` by at most `a` (R52). -/
def approach (cur target a : Int) : Int :=
  if cur ≤ target then min (cur + a) target else max (cur - a) target

/-- A count held in a signed 32-bit value (R48); open where it does not fit (log 7). -/
def count32 (x : Int) : Int :=
  if -2147483648 ≤ x ∧ x < 2147483648 then x else (Config.countBeyond x).bmod 4294967296

def Dir.sign : Dir → Int
  | .forward => 1
  | .reverse => -1

def Dir.opposite : Dir → Dir
  | .forward => .reverse
  | .reverse => .forward

/-- `p` is at or beyond `stop` in the direction (R55, R63). -/
def Dir.reached (d : Dir) (p stop : Int) : Bool :=
  match d with
  | .forward => decide (stop ≤ p)
  | .reverse => decide (p ≤ stop)

/-- `p` lies beyond `q` in the direction (R95). -/
def Dir.beyond (d : Dir) (p q : Int) : Bool :=
  match d with
  | .forward => decide (q < p)
  | .reverse => decide (p < q)

/-- Direction from one position to another; none when they are equal (R3). -/
def dirTo (a b : Int) : Option Dir :=
  if a < b then some .forward else if b < a then some .reverse else none

/-! ### The output side of the Cell Link -/

inductive NoticeKind where
  | flow | splice | mark | state | trip | record
  deriving DecidableEq, Repr

def Notice.kind : Notice → NoticeKind
  | .flow _ => .flow
  | .splice _ => .splice
  | .mark _ => .mark
  | .state _ _ _ => .state
  | .trip _ _ => .trip
  | .record _ => .record

/-- The frame is a waiting notice of this kind. -/
def OutFrame.isNotice (k : NoticeKind) : OutFrame → Bool
  | .reply _ => false
  | .notice n => n.kind == k

def OutFrame.isReply : OutFrame → Bool
  | .reply _ => true
  | .notice _ => false

/-- Replies waiting in the output queue (R188). -/
def Link.replies (l : Link) : Nat := (l.out.filter OutFrame.isReply).length

/-- The kind byte of the reply to a request kind (R189). -/
def replyKind (kind : Byte) : Byte := if kind.toNat < 128 then kind + 0x80#8 else 0xFF#8

/-- The frame of a BUSY answer (R187, R189). -/
def BusyAnswer.reply (b : BusyAnswer) : Reply :=
  { kind := replyKind b.kind, tag := b.tag, result := .busy, payload := [] }

/-- When the transmitter is IDLE and something waits it starts a frame: the oldest BUSY answer, or else the head of the output
queue (R191). -/
def Link.transmit (l : Link) : Link :=
  match l.sending with
  | some _ => l
  | none =>
    match l.busy with
    | b :: rest => { l with busy := rest, sending := some (.reply b.reply) }
    | [] =>
      match l.out with
      | f :: rest => { l with out := rest, sending := some f }
      | [] => l

/-- A reply joins the tail of the output queue (R188). -/
def Link.placeReply (l : Link) (r : Reply) : Link :=
  Link.transmit { l with out := l.out ++ [.reply r] }

/-- A notice replaces a waiting one of its kind and joins the tail (R191). -/
def Link.placeNotice (l : Link) (n : Notice) : Link :=
  Link.transmit { l with out := l.out.filter (fun f => !f.isNotice n.kind) ++ [.notice n] }

/-- A notice made by a block (R192). -/
def State.notify (s : State) (n : Notice) : State := s.onLink (·.placeNotice n)

/-- A change of Sequencer state with its STATE notice; the trip source of every notice but a trip's is none (R20). -/
def State.enter (s : State) (st : SeqState) (cause : Cause) : State :=
  (s.onSeq ({ · with state := st })).notify (.state st cause none)

end Sys2Proof.Machine
end

