-- ==== Sys2Proof/Machine/Flags.lean ====
section
/-! DEFINITION. The conditions the rules test: the stopped condition, the trip sources' presence, PRESTART readiness, what
stands at the head of the Step Queue, and the like. Each is a function of State; a condition that follows from other
state is computed here and held nowhere twice. -/

namespace Sys2Proof.Machine

/-! ### Steps -/

def ScanStep.isMark : ScanStep → Bool
  | .mark _ => true
  | _ => false

/-- HEAT or MOVE (R3). -/
def ScanStep.isMotion : ScanStep → Bool
  | .move .. | .heat .. => true
  | _ => false

/-- SPLICE, RESUME and END act at the queue head (R29). -/
def ScanStep.isSource : ScanStep → Bool
  | .splice _ | .resume | .finish => true
  | _ => false

/-- RESUME and END close a link segment (R16). -/
def ScanStep.closes : ScanStep → Bool
  | .resume | .finish => true
  | _ => false

/-- Zone of a HEAT or DWELL step. -/
def ScanStep.zone? : ScanStep → Option Nat
  | .heat _ _ _ z _ _ _ => some z
  | .dwell _ _ z _ => some z
  | _ => none

/-- Spin field of a HEAT or DWELL step, when present (R7). -/
def ScanStep.spin? : ScanStep → Option Nat
  | .heat _ _ _ _ _ _ sp => sp
  | .dwell _ _ _ sp => sp
  | _ => none

/-- End position of a motion step. -/
def ScanStep.stop? : ScanStep → Option Int
  | .move p _ _ _ => some p
  | .heat p _ _ _ _ _ _ => some p
  | _ => none

/-- Duration of a stationary step, ticks (R5). -/
def ScanStep.duration? : ScanStep → Option Nat
  | .dwell _ d _ _ => some d
  | .holdoff d => some d
  | .spray d => some d
  | _ => none

/-! ### The Step Queue -/

/-- The MARK steps ahead of the first other step: their numbers (R29, R32). -/
def headMarks : List QStep → List Nat
  | [] => []
  | q :: rest =>
    match q.step with
    | .mark n => n :: headMarks rest
    | _ => []

/-- The first non-MARK step, and the queue without it and without the marks ahead of it (R30). -/
def firstNonMark : List QStep → Option (QStep × List QStep)
  | [] => none
  | q :: rest => if q.step.isMark then firstNonMark rest else some (q, rest)

/-- The queue holds nothing but marks (R35). -/
def onlyMarks (q : List QStep) : Bool := q.all (·.step.isMark)

/-! ### Sequencer -/

/-- PRESTART, RUNNING and RUNOUT (2.2). -/
def SeqState.isScan : SeqState → Bool
  | .prestart | .running | .runout => true
  | _ => false

/-- IDLE and UNREFERENCED. -/
def SeqState.isRest : SeqState → Bool
  | .idle | .unreferenced => true
  | _ => false

/-- RUNNING with a HEAT or DWELL step Active: its zone (R135). -/
def State.heatingZone (s : State) : Option Nat :=
  if s.seq.state = .running then s.seq.active.bind (·.step.zone?) else none

/-- IDLE when referenced, else UNREFERENCED (R47, R149). -/
def State.restState (s : State) : SeqState := if s.travel.referenced then .idle else .unreferenced

/-- RUNNING with Active empty and turn phase NONE (R25). -/
def State.vacant (s : State) : Bool :=
  s.seq.state == .running && s.seq.active.isNone && s.seq.turnPhase == .none

/-! ### Travel -/

/-- The stopped condition (R50). -/
def Travel.stopped (t : Travel) : Bool := t.still == 20

/-- STOPPING completes: planned speed 0 and the stopped condition holding (R51). -/
def Travel.atRest (t : Travel) : Bool := t.planSpeed == 0 && t.stopped

/-- The spindle is up to speed: |measured − command| × 10 ≤ command; a command of 0 needs nothing (R65). -/
def Travel.spindleReady (t : Travel) : Bool :=
  t.spindleCommand == 0 ||
    decide (((t.rpm : Int) - t.spindleCommand).natAbs * 10 ≤ t.spindleCommand)

/-! ### Quench -/

/-- Both trails are empty (R100). -/
def Quench.trailsEmpty (q : Quench) : Bool := q.trail.q1.entries.isEmpty && q.trail.q2.entries.isEmpty

/-- The state the trail will leave its circuit in: that of its last entry, or of the valve when it is empty (R93). -/
def Quench.lastState (q : Quench) (r : Ring) : Bool :=
  match (q.trail.get r).entries.getLast? with
  | some e => e.on
  | none => (q.circuit.get r.circuit).valve

/-- TRAIL_FULL is present while the mark of either trail is set (R96). -/
def Quench.trailFull (q : Quench) : Bool := q.trail.q1.fullMark || q.trail.q2.fullMark

/-- QUENCH_FLOW_LOW_n is present while the circuit's watch is LOW (R104). -/
def Quench.flowLow (q : Quench) (c : Circuit) : Bool := (q.circuit.get c).watch == .low

/-! ### Trip sources -/

/-- INVERTER_LOST: the enable is on, READY has been seen, and READY is false (R84). -/
def State.inverterLost (s : State) : Bool :=
  s.power.enable && s.power.readySeen && !s.inputs.ready

/-- Presence of each source (R130, R131). -/
def State.present (s : State) : Source → Bool
  | .coilOvercurrent => s.power.coilOver
  | .pyroHigh => s.power.pyroHigh
  | .inverterFault => s.inputs.fault
  | .inverterLost => s.inverterLost
  | .coilWaterLow => s.trip.coilWaterLow
  | .quenchFlowLow1 => s.quench.flowLow .q1
  | .quenchFlowLow2 => s.quench.flowLow .q2
  | .quenchFlowLow3 => s.quench.flowLow .q3
  | .quenchTempHigh => s.trip.quenchTempHigh
  | .spindleLow => s.travel.spindleLow
  | .followingError => s.travel.followingError
  | .overtravel => s.travel.overSoft || s.travel.overLow || s.travel.overHigh
  | .trailFull => s.quench.trailFull
  | .encoderFault => s.travel.encoderFault
  | .sensorFault => Channel.all.any fun c => (s.meas.chan.get c).sensorFault
  | .forced => false
  | .estop => s.inputs.estop

/-- The class a source is set to (R131, R150). -/
def State.classOf (s : State) (src : Source) : SourceClass := s.cfg.trip.classOf src

/-- The present sources of a class (7.1). -/
def State.presentIn (s : State) (c : SourceClass) : List Source :=
  Source.all.filter fun src => s.present src && s.classOf src == c

/-! ### Records -/

/-- Records in the list, the open one included (R153). -/
def Zones.count (z : Zones) : Nat := z.closed.length + (if z.openRec.isSome then 1 else 0)

end Sys2Proof.Machine
end

