-- ==== Sys2Proof/Machine/Operands.lean ====
section
/-! DEFINITION. The operand forms of the requests: the step and window records of R197 with their ranges (R15, R18), the items
of the six configuration groups with their ranges and rules (R39, R26, R66, R90, R111, R128, R150, R193), the payload of
every request kind (R190, 10.8) and the encoder beside it. -/

namespace Sys2Proof.Machine

/-- lo..hi, both ends included (0.6). -/
def inRange (lo hi x : Int) : Bool := decide (lo ≤ x) && decide (x ≤ hi)

/-! ### Step and window records -/

/-- The quench byte, Q1 + 3 × Q2 with KEEP 0, ON 1, OFF 2; 9 or more is out of range (R197). -/
def quenchOf (n : Nat) : Option (QSetting × QSetting) :=
  let one : Nat → QSetting := fun k => if k = 0 then .keep else if k = 1 then .on else .off
  if n < 9 then some (one (n % 3), one (n / 3)) else none

/-- The spin field: 0xFFFF is absent, any other value is the spin, legal 0..600 (R197, R15). -/
def spinOf (n : Nat) : Option (Option Nat) :=
  if n = 65535 then some none else if n ≤ 600 then some (some n) else none

/-- The programmable range of end positions (R2). -/
def endInRange (p : Int) : Bool := inRange (-100000) 2500000 p

/-- A step record read by its kind byte; none when the kind is not one of the nine or a field present for the kind is out of
range (R15, R197). Fields absent from the kind are not looked at. -/
def ScanStep.ofRecord (r : StepRecord) : Option ScanStep :=
  match r.kind with
  | 1 =>
    match quenchOf r.quench with
    | some (a, b) =>
      if endInRange r.endPos && inRange 100 30000 r.speed then some (.move r.endPos r.speed a b)
      else none
    | none => none
  | 2 =>
    match quenchOf r.quench, spinOf r.spin with
    | some (a, b), some sp =>
      if endInRange r.endPos && inRange 10 15000 r.speed && inRange 100 100000 r.last &&
          decide (r.zone ≤ 15) then
        some (.heat r.endPos r.speed r.last r.zone a b sp)
      else none
    | _, _ => none
  | 3 =>
    match spinOf r.spin with
    | some sp =>
      if inRange 1 6000 r.last && inRange 1 6000 r.speed && decide (r.zone ≤ 15) then
        some (.dwell r.last r.speed r.zone sp)
      else none
    | none => none
  | 4 => if inRange 1 6000 r.last then some (.holdoff r.last) else none
  | 5 => if inRange 1 6000 r.last then some (.spray r.last) else none
  | 6 => if r.number ≤ 255 then some (.mark r.number) else none
  | 7 => if r.number ≤ 255 then some (.splice r.number) else none
  | 8 => some .resume
  | 9 => some .finish
  | _ => none

/-- A zone window record; none when it breaks R18. -/
def Window.ofRecord (w : WindowRecord) : Option Window :=
  let bounded : Nat → Bool := fun top =>
    decide (w.low ≤ top) && decide (w.high ≤ top) && (w.high == 0 || decide (w.low ≤ w.high))
  match w.kind with
  | 1 => if bounded 100000 then some ⟨.density, w.low, w.high⟩ else none
  | 2 => if bounded 1000000 then some ⟨.total, w.low, w.high⟩ else none
  | _ => none

/-- The windows of START-STREAM, or none when the zone count is outside 1..16 or any window breaks R18 (R23). -/
def windowsOf (ws : List WindowRecord) : Option (List Window) :=
  if 1 ≤ ws.length ∧ ws.length ≤ zonePlaces then ws.mapM Window.ofRecord else none

/-! ### Configuration groups -/

/-- The MACHINE items in payload order (10.8), or none: an item out of range, or soft low not below soft high (R66, R90). -/
def machineOf : List Int → Option MachineCfg
  | [a, kp, fe, lo, hi, hs, hk, ref, rs, ds, pr, fl, rl] =>
    if inRange 10 2000 a && inRange 1 500 kp && inRange 100 20000 fe && endInRange lo && endInRange hi &&
        inRange 100 30000 hs && inRange 10000 2600000 hk && endInRange ref && inRange 100 30000 rs &&
        inRange 100 30000 ds && inRange 100 6000 pr && inRange 0 200 fl && inRange 1 6000 rl &&
        decide (lo < hi) then
      some { accel := a.toNat, kp := kp.toNat, feLimit := fe.toNat, softLow := lo, softHigh := hi,
             homingSpeed := hs.toNat, homingStroke := hk.toNat, reference := ref,
             returnSpeed := rs.toNat, drainSpeed := ds.toNat, pRated := pr.toNat,
             floorShare := fl.toNat, rampLimit := rl.toNat }
    else none
  | _ => none

/-- The QUENCH items, or none: an item out of range, or an off threshold not below the on threshold (R111). -/
def quenchCfgOf : List Int → Option QuenchCfg
  | [o1, o2, l1, l2, f1, f2, f3, pv, dr, fl, on, off, idle] =>
    if inRange 0 300000 o1 && inRange 0 300000 o2 && inRange 0 500 l1 && inRange 0 500 l2 &&
        inRange 0 5000 f1 && inRange 0 5000 f2 && inRange 0 5000 f3 && inRange 50 2000 pv &&
        inRange 10 1000 dr && inRange 5 600 fl && inRange 1 2000 on && inRange 0 1999 off &&
        inRange 0 3600 idle && decide (off < on) then
      some { offset := ⟨o1.toNat, o2.toNat⟩, lead := ⟨l1.toNat, l2.toNat⟩,
             flowMin := ⟨f1.toNat, f2.toNat, f3.toNat⟩, proving := pv.toNat, dropout := dr.toNat,
             flood := fl.toNat, onThreshold := on.toNat, offThreshold := off.toNat,
             pumpIdle := idle.toNat }
    else none
  | _ => none

/-- Fault mode codes (R198). -/
def faultModeOf (x : Int) : Option FaultMode :=
  if x = 1 then some .hold else if x = 2 then some .substitute else if x = 3 then some .fault else none

/-- The items of one channel; SUBSTITUTE is not allowed for COIL_I and INV_P (R128). -/
def channelCfgOf (c : Channel) (period burst scale mode sub : Int) : Option ChannelCfg :=
  match faultModeOf mode with
  | some m =>
    if inRange 1 1000 period && [1, 2, 4, 8, 16].contains burst && inRange 1 100000 scale &&
        inRange (-32768) 32767 sub && !(m == .substitute && (c == .coilI || c == .invP)) then
      some { period := period.toNat, burst := burst.toNat, scale := scale.toNat, mode := m,
             substitute := sub }
    else none
  | none => none

/-- One item of each of the five nine-item blocks of the MEASURE payload for a channel. -/
def channelItems (xs : List Int) (c : Channel) : Option ChannelCfg :=
  channelCfgOf c (xs.getD c.num 0) (xs.getD (9 + c.num) 0) (xs.getD (18 + c.num) 0)
    (xs.getD (27 + c.num) 0) (xs.getD (36 + c.num) 0)

/-- Calibration mode codes (R198). -/
def calModeOf (x : Int) : Option CalMode :=
  if x = 1 then some .rotate else if x = 2 then some .all else none

/-- The MEASURE items, or none (R128). -/
def measureOf (xs : List Int) : Option MeasureCfg :=
  if xs.length = 49 then
    match channelItems xs .coilI, channelItems xs .invP, channelItems xs .pyro,
      channelItems xs .flow1, channelItems xs .flow2, channelItems xs .flow3,
      channelItems xs .qPress, channelItems xs .qTemp, channelItems xs .coilWater,
      calModeOf (xs.getD 48 0) with
    | some a, some b, some c, some d, some e, some f, some g, some h, some i, some m =>
      if inRange 1 254 (xs.getD 45 0) && inRange 1 15 (xs.getD 46 0) &&
          inRange 100 5000 (xs.getD 47 0) then
        some { chan := ⟨a, b, c, d, e, f, g, h, i⟩, stale := (xs.getD 45 0).toNat,
               relax := (xs.getD 46 0).toNat, calPeriod := (xs.getD 47 0).toNat, calMode := m }
      else none
    | _, _, _, _, _, _, _, _, _, _ => none
  else none

/-- Class codes (R198), held to the classes R131 allows for the source. -/
def classOfCode (allowed : List SourceClass) (x : Int) : Option SourceClass :=
  let c : Option SourceClass :=
    if x = 1 then some .warn else if x = 2 then some .limit else if x = 3 then some .trip else none
  c.filter allowed.contains

/-- Response codes that can be configured: RUNOUT, STOP, STOP_FLOOD (R131, R198). -/
def responseOfCode (x : Int) : Option Response :=
  if x = 1 then some .runout else if x = 2 then some .stop
  else if x = 3 then some .stopFlood else none

/-- The TRIP items, or none (R150). -/
def tripCfgOf : List Int → Option TripCfg
  | [c1, c2, c3, c4, c5, c6, c7, r1, r2, r3, r4, r5, r6, r7, r8, r9, r10, r11, r12,
      cap1, cap2, im, tm, wm, qt] =>
    match classOfCode [.limit, .trip] c1, classOfCode [.warn, .limit, .trip] c2,
      classOfCode [.warn, .trip] c3, classOfCode [.warn, .trip] c4, classOfCode [.warn, .trip] c5,
      classOfCode [.warn, .trip] c6, classOfCode [.warn, .trip] c7 with
    | some k1, some k2, some k3, some k4, some k5, some k6, some k7 =>
      match [r1, r2, r3, r4, r5, r6, r7, r8, r9, r10, r11, r12].mapM responseOfCode with
      | some [p1, p2, p3, p4, p5, p6, p7, p8, p9, p10, p11, p12] =>
        if inRange 10 100 cap1 && inRange 10 100 cap2 && inRange 10 6000 im && inRange 100 1500 tm &&
            inRange 0 5000 wm && inRange 5 120 qt then
          some { classCoilOver := k1, classPyro := k2, classFlow := ⟨k3, k4, k5⟩, classQTemp := k6,
                 classSensor := k7, respCoilOver := p1, respPyro := p2, respInvFault := p3,
                 respInvLost := p4, respCoilWater := p5, respFlow := ⟨p6, p7, p8⟩,
                 respQTemp := p9, respSpindle := p10, respSensor := p11, respForced := p12,
                 capCoilOver := cap1.toNat, capPyro := cap2.toNat, iMax := im.toNat,
                 tMax := tm.toNat, waterMin := wm.toNat, qTempLimit := qt.toNat }
        else none
      | _ => none
    | _, _, _, _, _, _, _ => none
  | _ => none

/-- The FLOW items: low 1..30, high 2..31, low less than high (R39). -/
def flowCfgOf : List Int → Option FlowCfg
  | [lo, hi] =>
    if inRange 1 30 lo && inRange 2 31 hi && decide (lo < hi) then some ⟨lo.toNat, hi.toNat⟩
    else none
  | _ => none

/-- The PRESTART item: 1..60 s (R26). -/
def prestartOf : List Int → Option Nat
  | [t] => if inRange 1 60 t then some t.toNat else none
  | _ => none

/-! ### Payloads -/

/-- Items of a configuration group, each a 4-byte signed value (R193). -/
def readItems : List Byte → Option (List Int)
  | [] => some []
  | a :: b :: c :: d :: rest => (readItems rest).map (s32 a b c d :: ·)
  | _ => none

/-- Zone window records of 9 bytes (R197). -/
def readWindows : List Byte → Option (List WindowRecord)
  | [] => some []
  | k :: a :: b :: c :: d :: e :: f :: g :: h :: rest =>
    (readWindows rest).map (⟨k.toNat, u32 a b c d, u32 e f g h⟩ :: ·)
  | _ => none

/-- A step record of 16 bytes and what follows it (R197). -/
def readStep : List Byte → Option (StepRecord × List Byte)
  | k :: z :: q :: n :: p0 :: p1 :: p2 :: p3 :: v0 :: v1 :: w0 :: w1 :: e0 :: e1 :: e2 :: e3 :: rest =>
    some (⟨k.toNat, z.toNat, q.toNat, n.toNat, s32 p0 p1 p2 p3, u16 v0 v1, u16 w0 w1,
      u32 e0 e1 e2 e3⟩, rest)
  | _ => none

/-- As many PROFILE-DATA records as the record count says, with nothing left over (R190). -/
def readRecords : Nat → List Byte → Option (List DataRecord)
  | 0, [] => some []
  | 0, _ :: _ => none
  | n + 1, t :: i0 :: i1 :: rest =>
    if t = 1#8 then
      match rest with
      | k :: a :: b :: c :: d :: e :: f :: g :: h :: rest' =>
        (readRecords n rest').map
          (.zone (u16 i0 i1) ⟨k.toNat, u32 a b c d, u32 e f g h⟩ :: ·)
      | _ => none
    else if t = 2#8 then
      match readStep rest with
      | some (r, rest') => (readRecords n rest').map (.step (u16 i0 i1) r :: ·)
      | none => none
    else none
  | _ + 1, _ => none

/-- CONFIGURE: the group by its first payload byte, then its items (R193). -/
def readConfigure : List Byte → Option Request
  | [] => none
  | g :: rest =>
    match readItems rest with
    | none => none
    | some xs =>
      match g.toNat, xs.length with
      | 1, 13 => some (.configureMachine xs)
      | 2, 13 => some (.configureQuench xs)
      | 3, 49 => some (.configureMeasure xs)
      | 4, 25 => some (.configureTrip xs)
      | 5, 2 => some (.configureFlow xs)
      | 6, 1 => some (.configurePrestart xs)
      | _, _ => none

/-- START-STREAM: part tag, zone count, then that many windows (R190). -/
def readStream : List Byte → Option Request
  | a :: b :: c :: d :: e :: f :: g :: h :: n :: rest =>
    match readWindows rest with
    | some ws => if ws.length = n.toNat then some (.startStream (tag8 a b c d e f g h) ws) else none
    | none => none
  | _ => none

/-- A payload that must be empty (10.8). -/
def noPayload (payload : List Byte) (r : Request) : Option Request :=
  if payload.isEmpty then some r else none

/-- What a request's payload says, by its kind: none in the outer Option for a kind that is not in the table (BAD_KIND), none in
the inner one for a wrong length (BAD_LENGTH) (R188, R190, 10.8). -/
def readRequest (kind : Byte) (payload : List Byte) : Option (Option Request) :=
  match kind.toNat with
  | 0x01 => some (noPayload payload .status)
  | 0x02 => some (readConfigure payload)
  | 0x03 => some (noPayload payload .restart)
  | 0x04 => some (noPayload payload .home)
  | 0x05 =>
    match payload with
    | [a, b, c, d, e, f] => some (some (.moveTo (s32 a b c d) (u16 e f)))
    | _ => some none
  | 0x06 => some (noPayload payload .stop)
  | 0x07 =>
    match payload with
    | [p, a, b, c, d, e, f, g, h] => some (some (.startProfile p.toNat (tag8 a b c d e f g h)))
    | _ => some none
  | 0x08 => some (readStream payload)
  | 0x09 =>
    match readStep payload with
    | some (r, []) => some (some (.step r))
    | _ => some none
  | 0x0A =>
    match payload with
    | [a, b, c, d, m] => some (some (.trim (u16 a b) (u16 c d) m.toNat))
    | _ => some none
  | 0x0B =>
    match payload with
    | [x] => some (some (if x = 0#8 then .inhibitOff else .inhibitOn))
    | _ => some none
  | 0x0C => some (noPayload payload .forceTrip)
  | 0x0D => some (noPayload payload .clearTrip)
  | 0x10 =>
    match payload with
    | [p, z, n, k0, k1, a, b, c, d, e, f, g, h] =>
      some (some (.profileOpen p.toNat z.toNat n.toNat (u16 k0 k1) (tag8 a b c d e f g h)))
    | _ => some none
  | 0x11 =>
    match payload with
    | p :: n :: rest => some ((readRecords n.toNat rest).map (.profileData p.toNat ·))
    | _ => some none
  | 0x12 =>
    match payload with
    | [p] => some (some (.profileClose p.toNat))
    | _ => some none
  | 0x13 =>
    match payload with
    | [p] => some (some (.profileErase p.toNat))
    | _ => some none
  | 0x14 => some (noPayload payload .profileList)
  | 0x18 =>
    match payload with
    | [a, b] => some (some (.recordGet (u16 a b)))
    | _ => some none
  | 0x19 =>
    match payload with
    | [a, b] => some (some (.recordRelease (u16 a b)))
    | _ => some none
  | _ => none

/-! ### The encoder -/

end Sys2Proof.Machine

namespace Sys2Proof

open Machine

/-- The kind byte of a request (10.8). -/
def Request.kindByte : Request → Byte
  | .status => 0x01#8
  | .configureMachine _ | .configureQuench _ | .configureMeasure _ | .configureTrip _
  | .configureFlow _ | .configurePrestart _ => 0x02#8
  | .restart => 0x03#8
  | .home => 0x04#8
  | .moveTo _ _ => 0x05#8
  | .stop => 0x06#8
  | .startProfile _ _ => 0x07#8
  | .startStream _ _ => 0x08#8
  | .step _ => 0x09#8
  | .trim _ _ _ => 0x0A#8
  | .inhibitOn | .inhibitOff => 0x0B#8
  | .forceTrip => 0x0C#8
  | .clearTrip => 0x0D#8
  | .profileOpen _ _ _ _ _ => 0x10#8
  | .profileData _ _ => 0x11#8
  | .profileClose _ => 0x12#8
  | .profileErase _ => 0x13#8
  | .profileList => 0x14#8
  | .recordGet _ => 0x18#8
  | .recordRelease _ => 0x19#8

def StepRecord.encode (r : StepRecord) : List Byte :=
  [byteOf r.kind, byteOf r.zone, byteOf r.quench, byteOf r.number] ++ beS4 r.endPos ++ be2 r.speed ++
    be2 r.spin ++ be4 r.last

def WindowRecord.encode (w : WindowRecord) : List Byte := byteOf w.kind :: (be4 w.low ++ be4 w.high)

def DataRecord.encode : DataRecord → List Byte
  | .zone i w => 1#8 :: (be2 i ++ w.encode)
  | .step i r => 2#8 :: (be2 i ++ r.encode)

/-- A configuration group's payload (R193). -/
def encodeItems (group : Nat) (xs : List Int) : List Byte := byteOf group :: xs.flatMap beS4

/-- The payload a request is sent with (10.8). -/
def Request.payload : Request → List Byte
  | .configureMachine xs => encodeItems 1 xs
  | .configureQuench xs => encodeItems 2 xs
  | .configureMeasure xs => encodeItems 3 xs
  | .configureTrip xs => encodeItems 4 xs
  | .configureFlow xs => encodeItems 5 xs
  | .configurePrestart xs => encodeItems 6 xs
  | .moveTo p v => beS4 p ++ be2 v
  | .startProfile p g => byteOf p :: be8 g
  | .startStream g ws => be8 g ++ (byteOf ws.length :: ws.flatMap WindowRecord.encode)
  | .step r => r.encode
  | .trim t s m => be2 t ++ be2 s ++ [byteOf m]
  | .inhibitOn => [1#8]
  | .inhibitOff => [0#8]
  | .profileOpen p z n k g => [byteOf p, byteOf z, byteOf n] ++ be2 k ++ be8 g
  | .profileData p rs => byteOf p :: byteOf rs.length :: rs.flatMap DataRecord.encode
  | .profileClose p => [byteOf p]
  | .profileErase p => [byteOf p]
  | .recordGet n => be2 n
  | .recordRelease n => be2 n
  | .status | .restart | .home | .stop | .forceTrip | .clearTrip | .profileList => []

/-- A request as the receive buffer holds it. -/
def Request.raw (r : Request) (tag : Byte) : RawRequest :=
  { kind := r.kindByte, tag := tag, payload := r.payload }

end Sys2Proof
end

