-- ==== Sys2Proof/Machine/Travel.lean ====
section
/-! DEFINITION. The Travel Unit (Chapter 3): the measured quantities of a position sample, the orders that set a mode of the
trajectory generator, its advance at each sample, and the spindle command. -/

namespace Sys2Proof.Machine

/-! ### Measured quantities -/

/-- v = round((P_now − P_old) × 25 / 4) (R49). -/
def measuredSpeed (now old : Int) : Int := roundDiv ((now - old) * 25) 4

/-- The first part of a sample: position, history, measured speed and still count (R48, R49, R50). -/
def Travel.measure (t : Travel) (counts : Int) : Travel :=
  let now := count32 (t.position + counts)
  let v := measuredSpeed now (t.history.headD t.position)
  { t with
    position := now
    history := t.history.tail ++ [now]
    speed := v
    still := if v.natAbs ≤ 5 then min (t.still + 1) 20 else 0 }

/-- The following error: planned position truncated to µm, less the measured position (R54). -/
def Travel.followError (t : Travel) : Int := truncDiv t.plan 1000 - t.position

/-- The planned or the measured speed points toward increasing positions (R59, R60). -/
def Travel.movesForward (t : Travel) : Bool := decide (0 < t.planSpeed) || decide (5 < t.speed)

def Travel.movesReverse (t : Travel) : Bool := decide (t.planSpeed < 0) || decide (t.speed < -5)

/-- The soft-limit condition (R59). -/
def Travel.softViolation (t : Travel) (c : MachineCfg) : Bool :=
  t.referenced &&
    ((decide (t.position < c.softLow) && t.movesReverse) ||
      (decide (c.softHigh < t.position) && t.movesForward))

/-- The FOLLOWING_ERROR condition (R54). -/
def Travel.followViolation (t : Travel) (c : MachineCfg) : Bool :=
  t.driveEnable && decide (c.feLimit < t.followError.natAbs)

/-! ### Orders to the trajectory generator (R51) -/

/-- A mode that leaves DISABLED turns the drive enable on and starts from the measured position with planned speed 0. -/
def Travel.awake (t : Travel) : Travel :=
  if t.mode = .disabled then
    { t with driveEnable := true, plan := t.position * 1000, planSpeed := 0 }
  else t

def Travel.orderHold (t : Travel) : Travel :=
  { t.awake with
    mode := .hold, targetSpeed := 0, stopPoint := none, dir := none, finish := .none,
    decision := .none }

/-- A run-out complete at its entry (R46): the mode in force stays (R51), with nothing left to move toward (log 15). -/
def Travel.standing (t : Travel) : Travel := { t with targetSpeed := 0 }

/-- DISABLED: drive enable off, the plan follows the position (R51, R53). -/
def Travel.orderDisabled (t : Travel) : Travel :=
  { t with
    mode := .disabled, driveEnable := false, speedCommand := 0, plan := t.position * 1000,
    planSpeed := 0, targetSpeed := 0, stopPoint := none, dir := none, finish := .none,
    decision := .none }

/-- SEEK at HOME acceptance: the homing start is recorded and the mark cleared (R62). -/
def Travel.orderSeek (t : Travel) (speed : Nat) : Travel :=
  { t.awake with
    mode := .seek, targetSpeed := speed, stopPoint := none, dir := some .reverse,
    finish := .none, decision := .none, homingStart := some t.position, switchFound := false }

/-- TARGET: to a stop point at a given speed, in the direction from the present position (R63, R44). -/
def Travel.orderTarget (t : Travel) (stop : Int) (speed : Nat) : Travel :=
  { t.awake with
    mode := .target, targetSpeed := speed, stopPoint := some stop, dir := dirTo t.position stop,
    finish := .none, decision := .none, arrivalSeen := false }

/-- STOPPING; not taken while DISABLED (R51). -/
def Travel.orderStopping (t : Travel) : Travel :=
  if t.mode = .disabled then t
  else
    { t with
      mode := .stopping, targetSpeed := 0, stopPoint := none, dir := none, finish := .none,
      decision := .none }

/-- DRAIN in the pass direction; not taken while DISABLED, and a stop with no pass (R51, R46: with pass direction NONE the trails
are empty). -/
def Travel.orderDrain (t : Travel) (dir : Option Dir) (speed : Nat) : Travel :=
  match dir with
  | none => t.orderStopping
  | some d =>
    if t.mode = .disabled then t
    else
      { t with
        mode := .drain, targetSpeed := speed, stopPoint := none, dir := some d, finish := .none,
        decision := .none }

/-- What a newly activated motion step lets the generator finish first: a stop in progress, or any motion against the step's
direction (R57). -/
def Travel.stopInProgress (t : Travel) (d : Dir) : Finish :=
  if t.planSpeed = 0 then .none
  else
    match t.mode, t.decision, t.finish, t.stopPoint with
    | .scan, .brake, .none, some p => .at p
    | .scan, .brake, .none, none => .rest
    | .scan, _, .none, _ => if d.sign * t.planSpeed < 0 then .rest else .none
    | .scan, _, f, _ => f
    | .drain, _, _, _ => if d.sign * t.planSpeed < 0 then .rest else .none
    | _, _, _, _ => .rest

/-- SCAN at the activation of a HEAT or MOVE step (R55, R57, R58). -/
def Travel.orderScan (t : Travel) (d : Dir) (speed : Nat) : Travel :=
  let f := t.awake.stopInProgress d
  { t.awake with
    mode := .scan, targetSpeed := speed, stopPoint := none, dir := some d, finish := f,
    decision := .none }

/-! ### The advance of a sample (R52) -/

/-- Deceleration at the configured acceleration toward rest. -/
def Travel.brake (t : Travel) (a : Nat) : Travel :=
  let v := approach t.planSpeed 0 a
  { t with planSpeed := v, plan := t.plan + v }

/-- Toward a signed target speed, no stop point. -/
def Travel.cruise (t : Travel) (a : Nat) (target : Int) : Travel :=
  let v := approach t.planSpeed target a
  { t with planSpeed := v, plan := t.plan + v }

/-- Remaining distance to a stop point, 0.001 µm, along a direction. -/
def Travel.remaining (t : Travel) (d : Dir) (stop : Int) : Nat := (d.sign * (stop * 1000 - t.plan)).toNat

/-- floor(√(2 × a × r)): the highest speed from which a stop at `a` still reaches the stop point. -/
def stopCap (a r : Nat) : Nat := isqrt (2 * a * r)

/-- Toward a stop point: the target speed, held to the cap, the fall never more than `a`; an advance that reaches or passes the
stop point sets the plan on it at rest. -/
def Travel.runTo (t : Travel) (a : Nat) (d : Dir) (stop : Int) (target : Int) : Travel :=
  let u := d.sign * t.planSpeed
  let capped := min (approach u target a) (stopCap a (t.remaining d stop) : Int)
  let v := max capped (u - a)
  let plan := t.plan + d.sign * v
  if d.reached plan (stop * 1000) then { t with plan := stop * 1000, planSpeed := 0 }
  else { t with plan := plan, planSpeed := d.sign * v }

/-- A stop being finished is over when the plan is at rest (R57). -/
def Travel.finished (t : Travel) : Travel := if t.planSpeed = 0 then { t with finish := .none } else t

/-- µm/s of a speed in 0.01 mm/s (R52). -/
def micro (speed : Nat) : Int := (speed : Int) * 10

/-- The generator's advance in its mode. A stop point that equals the position it was ordered from has no direction (R63), and is run
as FORWARD: the model's choice, log 34. -/
def Travel.advance (t : Travel) (c : MachineCfg) : Travel :=
  let d := t.dir.getD .forward
  match t.mode with
  | .disabled => { t with plan := t.position * 1000, planSpeed := 0 }
  | .hold | .stopping => t.brake c.accel
  | .seek | .drain => t.cruise c.accel (d.sign * micro t.targetSpeed)
  | .target =>
    match t.stopPoint with
    | some p => t.runTo c.accel d p (micro t.targetSpeed)
    | none => t.brake c.accel
  | .scan =>
    match t.finish with
    | .rest => (t.brake c.accel).finished
    | .at p =>
      let e : Dir := if t.planSpeed < 0 then .reverse else .forward
      (t.runTo c.accel e p t.planSpeed.natAbs).finished
    | .none =>
      match t.decision, t.stopPoint with
      | .brake, some p => t.runTo c.accel d p (micro t.targetSpeed)
      | .brake, none => t.brake c.accel
      | _, _ => t.cruise c.accel (d.sign * micro t.targetSpeed)

/-- Once the plan stands at the stop point and the carriage has not reached it, the command toward it is at least 10 (R53); with no
direction FORWARD is taken (log 34). -/
def Travel.creep (t : Travel) (cmd : Int) : Int :=
  match t.mode, t.stopPoint with
  | .scan, some p | .target, some p =>
    let d := t.dir.getD .forward
    if t.plan = p * 1000 ∧ d.reached t.position p = false then
      match d with
      | .forward => max cmd 10
      | .reverse => min cmd (-10)
    else cmd
  | _, _ => cmd

/-- The planned speed's share of the command: none in HOLD, where the command is the correction term alone (R53). -/
def Travel.feedForward (t : Travel) : Int := if t.mode = .hold then 0 else t.planSpeed

/-- The speed command of a sample, after the advance (R53). -/
def Travel.command (t : Travel) (c : MachineCfg) : Int :=
  if t.driveEnable then
    clampInt (-30000) 30000 (t.creep (roundDiv (t.feedForward + c.kp * t.followError) 10))
  else 0

/-- The advance and the command of a sample (R52, R53). -/
def Travel.drive (t : Travel) (c : MachineCfg) : Travel :=
  let t' := t.advance c
  { t' with speedCommand := t'.command c }

/-! ### The braking point (R56) -/

/-- v² / (2,000 × a), truncated: the braking distance in µm. -/
def brakingDistance (v : Int) (a : Nat) : Nat := v.natAbs * v.natAbs / (2000 * a)

/-- The remaining distance is no more than the braking distance plus 1,000 µm. -/
def Travel.atBrakingPoint (t : Travel) (c : MachineCfg) (stop : Int) : Bool :=
  decide ((stop - truncDiv t.plan 1000).natAbs ≤ brakingDistance t.planSpeed c.accel + 1000)

/-- A stop at `stop` can be kept: a stop at the start of the step, still being finished, is completed first and the step starts
from standstill behind it; otherwise the cap must not ask for more than `a` of deceleration (R57). -/
def Travel.keepsStop (t : Travel) (c : MachineCfg) (stop : Int) : Bool :=
  let d := t.dir.getD .forward
  match t.finish with
  | .at _ => true
  | .none | .rest =>
    decide (d.sign * t.planSpeed - c.accel ≤ (stopCap c.accel (t.remaining d stop) : Int))

/-- BRAKE: the stop point is the end position, unless it cannot be kept and the carriage overruns (R57, log 16). -/
def Travel.decideBrake (t : Travel) (c : MachineCfg) (stop : Int) : Travel :=
  { t with decision := .brake, stopPoint := if t.keepsStop c stop then some stop else none }

/-! ### Homing and the spindle -/

/-- The position is redefined to the reference value; history and plan move by the same amount, the reference flag is set (R62). -/
def Travel.redefine (t : Travel) (reference : Int) : Travel :=
  let shift := reference - t.position
  { t with
    position := reference, history := t.history.map (· + shift), plan := t.plan + shift * 1000,
    referenced := true }

/-- The spindle command, sent as soon as it is set; a change starts the low count afresh (R64, R65). -/
def Travel.setSpindle (t : Travel) (rpm : Nat) : Travel :=
  if t.spindleCommand = rpm then t else { t with spindleCommand := rpm, lowCount := 0 }

def State.setSpindle (s : State) (rpm : Nat) : State := s.onTravel (·.setSpindle rpm)

/-- Trimmed speed of a HEAT step: round(speed × S / 1,000) (R4). -/
def trimmedSpeed (speed trim : Nat) : Nat := (roundDiv ((speed : Int) * trim) 1000).toNat

/-- The run-out speed of the present pass (R46). -/
def State.runoutSpeed (s : State) : Nat := s.seq.heatSpeed.getD s.cfg.machine.drainSpeed

end Sys2Proof.Machine
end

