-- ==== Sys2Proof/Machine/Quench.lean ====
section
/-! DEFINITION. The Quench Unit (Chapter 5): trails, valves with their flow watches, release with lead, spray and flood, the
pump and its idle timer, Supply Ready. -/

namespace Sys2Proof.Machine

/-! ### Valves and flow watches (R104, R106) -/

/-- A valve set OPEN: from CLOSED its watch starts proving, or is PROVED at once when the flow-min is 0; an open valve is left as
it stands (R92, R104). -/
def Quench.openValve (q : Quench) (c : QuenchCfg) (k : Circuit) : Quench :=
  if (q.circuit.get k).valve then q
  else
    let st : CircuitState :=
      if c.flowMin.get k = 0 then
        { valve := true, watch := .proved, proving := none, dropout := none }
      else
        { valve := true, watch := .proving, proving := some c.proving, dropout := none }
    { q with circuit := q.circuit.set k st }

/-- A valve set CLOSED ends its flow watch (R106). -/
def Quench.closeValve (q : Quench) (k : Circuit) : Quench :=
  { q with circuit := q.circuit.set k .closed }

/-- A published flow value at the watch of its circuit (R104, R105); with a flow-min of 0 every value is good, a negative one too, so
that the dropout timer never starts (R104). -/
def CircuitState.flow (w : CircuitState) (c : QuenchCfg) (flowMin : Nat) (value : Int) : CircuitState :=
  let good := flowMin == 0 || decide ((flowMin : Int) ≤ value)
  match w.watch with
  | .closed => w
  | .proving => if good then { w with watch := .proved, proving := none } else w
  | .proved =>
    if good then { w with dropout := none }
    else { w with dropout := some (w.dropout.getD c.dropout) }
  | .low => if good then { w with watch := .proved } else w

/-- The expiry of the proving timer in PROVING, or of the dropout timer in PROVED: the watch becomes LOW (R104, R105). -/
def CircuitState.toLow (w : CircuitState) : CircuitState :=
  { w with watch := .low, proving := none, dropout := none }

/-! ### Trails (R93 to R96) -/

/-- An append at the tail; lost, with the TRAIL_FULL mark set, when 16 entries are held (R96). -/
def Trail.append (t : Trail) (e : TrailEntry) : Trail :=
  if t.entries.length < trailCap then { t with entries := t.entries ++ [e] }
  else { t with fullMark := true }

/-- The mark is cleared when the trail is empty (R96). -/
def Trail.settle (t : Trail) : Trail := if t.entries.isEmpty then { t with fullMark := false } else t

/-- How an entry is placed: appended when the trail is empty or the position lies beyond the last entry; else the last entry is
removed instead (R95). -/
def Trail.place (t : Trail) (dir : Option Dir) (e : TrailEntry) : Trail :=
  match t.entries.getLast? with
  | none => t.append e
  | some last =>
    if (match dir with | some d => d.beyond e.pos last.pos | none => true) then t.append e
    else Trail.settle { t with entries := t.entries.dropLast }

/-- A request that the ring's circuit be left in a state from a position on: nothing when the trail already leaves it so
(R94, R95). -/
def Quench.request (q : Quench) (dir : Option Dir) (r : Ring) (on : Bool) (pos : Int) : Quench :=
  if q.lastState r = on then q
  else { q with trail := q.trail.set r ((q.trail.get r).place dir ⟨pos, on⟩) }

/-- The quench setting of an activated motion step for one ring (R94). -/
def Quench.setting (q : Quench) (dir : Option Dir) (r : Ring) (set : QSetting) (pos : Int) : Quench :=
  match set with
  | .keep => q
  | .on => q.request dir r true pos
  | .off => q.request dir r false pos

/-- The OFF requests of a run-out, one for each circuit whose last state is ON (R45, R95, R140). -/
def Quench.offRequests (q : Quench) (dir : Option Dir) (pos : Int) : Quench :=
  (q.request dir .q1 false pos).request dir .q2 false pos

/-! ### Release (R97 to R99) -/

/-- s = P − dir × o (R97). -/
def sprayPosition (d : Dir) (pos : Int) (offset : Nat) : Int := pos - d.sign * offset

/-- d = trunc(|v| × L / 100) (R98). -/
def leadDistance (v : Int) (lead : Nat) : Nat := v.natAbs * lead / 100

/-- The head entry at `x` is released (R99). -/
def releaseDue (d : Dir) (spray : Int) (lead : Nat) (x : Int) : Bool :=
  match d with
  | .forward => decide (x ≤ spray + lead)
  | .reverse => decide (spray - lead ≤ x)

/-- Entries released one after another, head first; each sets the valve. -/
def releaseGo (c : QuenchCfg) (k : Circuit) (due : Int → Bool) :
    List TrailEntry → Quench → List TrailEntry × Quench
  | [], q => ([], q)
  | e :: rest, q =>
    if due e.pos then
      releaseGo c k due rest (if e.on then q.openValve c k else q.closeValve k)
    else (e :: rest, q)

/-- Release of one ring's trail at a sample (R99). -/
def Quench.release (q : Quench) (c : QuenchCfg) (d : Dir) (pos v : Int) (r : Ring) : Quench :=
  let due := releaseDue d (sprayPosition d pos (c.offset.get r)) (leadDistance v (c.lead.get r))
  let res := releaseGo c r.circuit due (q.trail.get r).entries q
  { res.2 with
    trail := res.2.trail.set r (Trail.settle { q.trail.get r with entries := res.1 }) }

/-- The discard order: trails emptied, Q1 and Q2 closed, marks cleared; with HALT also Q3 closed and a flood ended (R101). -/
def Quench.discard (q : Quench) (halt : Bool) : Quench :=
  let q' := { (q.closeValve .q1).closeValve .q2 with trail := ⟨.empty, .empty⟩ }
  if halt then { q'.closeValve .q3 with q3Owner := .none, floodTimer := none } else q'

/-! ### The pump (R109, R110) -/

/-- Acceptance of a START: the pump is ON and its idle timer stopped. -/
def Quench.pumpOn (q : Quench) : Quench :=
  { q with pump := true, idleTimer := none, idleDeferred := false }

def Quench.pumpOff (q : Quench) : Quench :=
  { q with pump := false, idleTimer := none, idleDeferred := false }

/-- A start of the idle timer: nothing while it runs; an idle time of 0 stops the pump at once (R110). -/
def Quench.idleStart (q : Quench) (c : QuenchCfg) : Quench :=
  if q.idleTimer.isSome then q
  else if c.pumpIdle = 0 then q.pumpOff
  else { q with idleTimer := some c.pumpIdle, idleDeferred := false }

/-- Expiry of the running idle timer: put off during a flood, else the pump stops (R109). -/
def Quench.idleExpiry (q : Quench) : Quench :=
  if q.idleTimer.isNone then q
  else if q.q3Owner = .flood then { q with idleTimer := none, idleDeferred := true }
  else q.pumpOff

/-! ### Static spray and flood (R102, R103) -/

/-- Activation of a SPRAY step; it takes a running flood over (R102). -/
def Quench.sprayOpen (q : Quench) (c : QuenchCfg) : Quench :=
  { q.openValve c .q3 with q3Owner := .spray, floodTimer := none }

/-- A SPRAY step leaves Active: Q3 closes when SPRAY still owns it (R102). -/
def Quench.sprayClose (q : Quench) : Quench :=
  if q.q3Owner = .spray then { q.closeValve .q3 with q3Owner := .none } else q

/-- The flood order: nothing while a flood runs (R103). -/
def Quench.floodOrder (q : Quench) (c : QuenchCfg) : Quench :=
  if q.q3Owner = .flood then q
  else { q.openValve c .q3 with q3Owner := .flood, floodTimer := some c.flood }

/-- Expiry of the flood timer: Q3 closes; an idle expiry put off is started afresh (R103, R109). -/
def Quench.floodExpiry (q : Quench) (c : QuenchCfg) : Quench :=
  let q' := { q.closeValve .q3 with q3Owner := .none, floodTimer := none }
  if q'.idleDeferred then q'.idleStart c else q'

/-! ### Supply Ready (R108) -/

/-- Supply Ready after a published Q_PRESS value. -/
def supplyAfter (c : QuenchCfg) (ready : Bool) (value : Int) : Bool :=
  if ready then decide ((c.offThreshold : Int) ≤ value) else decide ((c.onThreshold : Int) ≤ value)

end Sys2Proof.Machine
end

