-- ==== Sys2Proof/Machine/Zones.lean ====
section
/-! DEFINITION. Zone Accounting (Chapter 8): opening a record, counting update reports and position samples, flags, the
windows and the verdict at the close, the record list. -/

namespace Sys2Proof.Machine

/-! ### Opening (R153, R154) -/

def ZoneAcc.start : ZoneAcc :=
  { energy := 0, length := 0, extent := none, peak := 0, maxTemp := none, satDist := 0,
    limDist := 0, saturated := false, limited := false, quenchShort := false, warn := false }

/-- The number after a record number; from 65,535 it goes to 1 (R153). -/
def nextRecordNumber (n : Nat) : Nat := if n = 65535 then 1 else n + 1

/-- The first number from `n` on that is not taken, passing over at most as many as are taken (R153). -/
def freeNumberGo (taken : List Nat) : Nat → Nat → Nat
  | 0, n => n
  | k + 1, n => if taken.contains n then freeNumberGo taken k (nextRecordNumber n) else n

/-- Numbers carried by records in the list. -/
def Zones.numbers (z : Zones) : List Nat :=
  z.closed.map (·.number) ++ (match z.openRec with | some r => [r.number] | none => [])

/-- The number the next record takes (R153). -/
def Zones.numberToTake (z : Zones) : Nat := freeNumberGo z.numbers z.numbers.length z.nextNumber

/-- A record is opened (R153). -/
def Zones.openRecord (z : Zones) (part : Tag8) (page : Option Nat) (source : Origin)
    (windows : List Window) : Zones :=
  let n := z.numberToTake
  { z with
    nextNumber := nextRecordNumber n
    openRec := some
      { number := n, part := part, page := page, source := source, warn := false,
        zones := windows.map fun w => ⟨w, .start⟩, current := none, lastZone := none,
        ceiling := .none, pOut := 0, powered := false } }

/-! ### The open record -/

def Zones.onOpen (z : Zones) (f : OpenRecord → OpenRecord) : Zones :=
  { z with openRec := z.openRec.map f }

def OpenRecord.onZone (r : OpenRecord) (i : Nat) (f : ZoneAcc → ZoneAcc) : OpenRecord :=
  { r with zones := r.zones.modify i fun e => { e with acc := f e.acc } }

/-- Activation: the current zone, and the last zone of a HEAT or DWELL (R155). -/
def OpenRecord.activated (r : OpenRecord) (zone : Option Nat) (heat : Bool) : OpenRecord :=
  match zone with
  | some z => { r with current := some ⟨z, heat⟩, lastZone := some z }
  | none => { r with current := none }

/-- Step end, RUNOUT entry, entry to TRIPPING or TRIPPED, exit from PRESTART (R155). -/
def OpenRecord.noZone (r : OpenRecord) : OpenRecord := { r with current := none }

/-! ### Counting (R156, R157) -/

/-- What each power update hands over (R88). -/
structure UpdateReport where
  pMeas : Int
  pOut : Nat
  ceiling : Ceiling
  underFloor : Bool
  pyro : Option Int
  deriving DecidableEq, Repr

/-- The higher of two readings, either absent. -/
def maxReading (a b : Option Int) : Option Int :=
  match a, b with
  | some x, some y => some (max x y)
  | none, y => y
  | x, none => x

/-- An update report counted to a zone (R156). -/
def ZoneAcc.report (a : ZoneAcc) (u : UpdateReport) : ZoneAcc :=
  { a with
    energy := a.energy + u.pMeas.toNat
    peak := max a.peak u.pOut
    maxTemp := maxReading a.maxTemp u.pyro
    saturated := a.saturated || u.ceiling == .saturated
    limited := a.limited || u.ceiling == .limited }

/-- An update report taken by the open record (R156). -/
def OpenRecord.report (r : OpenRecord) (running inhibit : Bool) (u : UpdateReport) : OpenRecord :=
  let r' := { r with ceiling := u.ceiling, pOut := u.pOut, powered := r.powered || decide (0 < u.pOut) }
  match r.current with
  | some c => if running && !inhibit then r'.onZone c.zone (·.report u) else r'
  | none => r'

/-- A range widened to take two positions in (R157). -/
def widen (e : Option (Int × Int)) (a b : Int) : Option (Int × Int) :=
  match e with
  | some (lo, hi) => some (min lo (min a b), max hi (max a b))
  | none => some (min a b, max a b)

/-- A position sample counted to a zone under a HEAT step (R157). -/
def ZoneAcc.sample (a : ZoneAcc) (before now : Int) (heated : Bool) (ceiling : Ceiling) : ZoneAcc :=
  let d := (now - before).natAbs
  { a with
    length := if heated then a.length + d else a.length
    extent := if heated then widen a.extent before now else a.extent
    satDist := if ceiling = .saturated then a.satDist + d else a.satDist
    limDist := if ceiling = .limited then a.limDist + d else a.limDist }

/-- A position sample taken by the open record (R157). -/
def OpenRecord.sample (r : OpenRecord) (running inhibit : Bool) (before now : Int) : OpenRecord :=
  match r.current with
  | some ⟨z, true⟩ =>
    if running then
      r.onZone z (·.sample before now (decide (0 < r.pOut) || inhibit) r.ceiling)
    else r
  | _ => r

/-! ### Flags (R158, R159) -/

/-- A WARN flag, for a zone or for the record as a whole (R158). -/
def OpenRecord.warnFlag (r : OpenRecord) (zone : Option Nat) : OpenRecord :=
  match zone with
  | some z => r.onZone z ({ · with warn := true })
  | none => { r with warn := true }

/-- A zone's extent contains the position, both ends included. -/
def ZoneAcc.covers (a : ZoneAcc) (pos : Int) : Bool :=
  match a.extent with
  | some (lo, hi) => decide (lo ≤ pos) && decide (pos ≤ hi)
  | none => false

/-- A quench-short report flags every zone whose heated extent contains the position (R159). -/
def OpenRecord.quenchShort (r : OpenRecord) (pos : Int) : OpenRecord :=
  { r with
    zones := r.zones.map fun e =>
      if e.acc.covers pos then { e with acc := { e.acc with quenchShort := true } } else e }

/-! ### The close (R160 to R163) -/

/-- trunc(energy × 100 / heated length), absent when the length is 0 (R161). -/
def ZoneAcc.density (a : ZoneAcc) : Option Nat :=
  if a.length = 0 then none else some (a.energy * 100 / a.length)

/-- The energy in J: the accumulator truncated from 0.1 J (R161, R163). -/
def ZoneAcc.joules (a : ZoneAcc) : Nat := a.energy / 10

/-- OUT_LOW (R161). -/
def ZoneEntry.outLow (e : ZoneEntry) : Bool :=
  match e.window.kind with
  | .density =>
    decide (e.acc.length < 1000) ||
      (decide (0 < e.window.low) && decide (e.acc.energy * 100 / e.acc.length < e.window.low))
  | .total => decide (0 < e.window.low) && decide (e.acc.joules < e.window.low * 1000)

/-- OUT_HIGH (R161). -/
def ZoneEntry.outHigh (e : ZoneEntry) : Bool :=
  match e.window.kind with
  | .density =>
    decide (1000 ≤ e.acc.length) && decide (e.window.high ≠ 0) &&
      decide (e.window.high < e.acc.energy * 100 / e.acc.length)
  | .total => decide (e.window.high ≠ 0) && decide (e.window.high * 1000 < e.acc.joules)

/-- INTERRUPTED: the last zone, when the end cause is not COMPLETE (R162). -/
def interruptedZone (cause : EndCause) (last : Option Nat) (i : Nat) : Bool :=
  cause != .complete && last == some i

/-- The summary of zone `i` at the close (R161 to R164). -/
def ZoneEntry.summary (e : ZoneEntry) (cause : EndCause) (last : Option Nat) (i : Nat) : ZoneSummary :=
  { zone := i, energy := e.acc.joules, length := e.acc.length, density := e.acc.density,
    peak := e.acc.peak, maxTemp := e.acc.maxTemp, satDist := e.acc.satDist,
    limDist := e.acc.limDist, extent := e.acc.extent, outLow := e.outLow, outHigh := e.outHigh,
    saturated := e.acc.saturated, limited := e.acc.limited, quenchShort := e.acc.quenchShort,
    interrupted := interruptedZone cause last i, warn := e.acc.warn }

/-- Summaries of the zones from index `i` on, in zone order. -/
def summariesFrom (cause : EndCause) (last : Option Nat) : Nat → List ZoneEntry → List ZoneSummary
  | _, [] => []
  | i, e :: rest => e.summary cause last i :: summariesFrom cause last (i + 1) rest

/-- A zone that keeps the verdict from PASS (R162). -/
def ZoneSummary.bad (z : ZoneSummary) : Bool := z.outLow || z.outHigh || z.quenchShort || z.interrupted

/-- The verdict (R162). -/
def verdictOf (powered : Bool) (cause : EndCause) (zones : List ZoneSummary) : Verdict :=
  if !powered then .notRun
  else if cause == .complete && !zones.any ZoneSummary.bad then .pass
  else .reject

/-- The closed record (R160 to R164). -/
def OpenRecord.close (r : OpenRecord) (cause : EndCause) (time : Nat) (trip : Option TripRecord) :
    PartRecord :=
  let zs := summariesFrom cause r.lastZone 0 r.zones
  { number := r.number, part := r.part, page := r.page, source := r.source, endCause := cause,
    verdict := verdictOf r.powered cause zs, warn := r.warn, scanTime := time,
    total := (zs.map (·.energy)).sum, zones := zs, trip := trip }

/-- The open record, if any, is closed and stays in the list (R160). -/
def Zones.close (z : Zones) (cause : EndCause) (time : Nat) (trip : Option TripRecord) : Zones :=
  match z.openRec with
  | some r => { z with closed := z.closed ++ [r.close cause time trip], openRec := none }
  | none => z

/-- The close at the level of the part: the scan time from the scan clock, and the RECORD notice (R160, R168). -/
def State.closeRecord (s : State) (cause : EndCause) (trip : Option TripRecord) : State :=
  match s.zones.openRec with
  | some r => (s.onZones (·.close cause (s.seq.scanClock.getD 0) trip)).notify (.record r.number)
  | none => s

/-! ### The record list (R166, R167) -/

/-- The closed record of a number; 0 names the oldest (R166). -/
def Zones.find (z : Zones) (n : Nat) : Option PartRecord :=
  if n = 0 then z.closed.head? else z.closed.find? (·.number == n)

/-- The open record carries the number. -/
def Zones.isOpenNumber (z : Zones) (n : Nat) : Bool :=
  match z.openRec with
  | some r => r.number == n
  | none => false

/-- A closed record leaves the list; the records behind it keep their order (R167). -/
def Zones.release (z : Zones) (n : Nat) : Zones :=
  { z with closed := z.closed.filter (·.number != n) }

end Sys2Proof.Machine
end

