-- ==== Sys2Proof/Machine/Power.lean ====
section
/-! DEFINITION. The Power Unit (Chapter 4): the power update by its stages, zero orders, the inverter lines, the tests of coil
current and surface temperature. -/

namespace Sys2Proof.Machine

/-! ### Zero orders and the enable (R70, R83, R84) -/

/-- P_out 0, code 0, status NONE and not under-floor, at once (R70). -/
def Power.zero (p : Power) : Power :=
  { p with pOut := 0, code := 0, ceiling := .none, underFloor := false }

/-- The enable goes off; the ready-seen mark is cleared with it (R84). -/
def Power.enableOff (p : Power) : Power := { p with enable := false, readySeen := false }

/-- The enable goes on; the ready-seen mark is set when READY is true (R84). -/
def Power.enableOn (p : Power) (ready : Bool) : Power :=
  { p with enable := true, readySeen := p.readySeen || ready }

/-- The zero order that turns the enable off: RUNOUT entry, exit from PRESTART, a trip response (R70). -/
def State.zeroOrder (s : State) : State := s.onPower fun p => p.zero.enableOff

/-! ### What an update reads (R68) -/

/-- What the Active step asks for, and a zero case otherwise (R74). -/
inductive Demand where
  | heat (energy : Nat)
  | dwell (power : Nat)
  | zeroCase
  deriving DecidableEq, Repr

/-- The demand of the Active step in the Sequencer's state (R74). -/
def State.demand (s : State) : Demand :=
  if s.seq.state = .running then
    match s.seq.active with
    | some a =>
      match a.step with
      | .heat _ _ e _ _ _ _ => .heat e
      | .dwell p _ _ _ => .dwell p
      | _ => .zeroCase
    | none => .zeroCase
  else .zeroCase

/-- Inhibit is on, or the Sequencer is TRIPPING or TRIPPED (R69). -/
def State.forcedZero (s : State) : Bool :=
  s.power.inhibit || s.seq.state == .tripping || s.seq.state == .tripped

/-- P_meas when it is fit for stage 1: the published INV_P, at most 2 ms old (R71). -/
def State.fitMeas (s : State) : Option Int :=
  match s.meas.chan.invP.published, s.meas.chan.invP.age with
  | some v, some age => if age ≤ 2 then some v else none
  | _, _ => none

/-- Cap of a LIMIT condition: trunc(level × P_rated / 100) (R77). -/
def limitCap (level rated : Nat) : Nat := level * rated / 100

/-- P_max: the least of P_rated and the cap of each present LIMIT condition (R77). Only COIL_OVERCURRENT and PYRO_HIGH can be
classed LIMIT (R136). -/
def State.pMax (s : State) : Nat :=
  let rated := s.cfg.machine.pRated
  let a := if s.power.coilOver && s.cfg.trip.classCoilOver == .limit then
    min rated (limitCap s.cfg.trip.capCoilOver rated) else rated
  if s.power.pyroHigh && s.cfg.trip.classPyro == .limit then
    min a (limitCap s.cfg.trip.capPyro rated) else a

/-- P_min = trunc(share × P_rated / 1,000) (R79). -/
def floorPower (c : MachineCfg) : Nat := c.floorShare * c.pRated / 1000

/-! ### The stages -/

/-- Stage 1, the correction accumulator: A + trunc(e × 1,000 / P_prev), clamped (R73). -/
def correctAcc (acc : Int) (pPrev : Nat) (pMeas : Int) : Int :=
  clampInt (-12800) 12800 (acc + truncDiv (((pPrev : Int) - pMeas) * 1000) pPrev)

/-- Stage 1 is taken when P_meas is fit, P_prev is above 0 and at least P_min, and the update before had ceiling status NONE (R72);
else A is held. -/
def stage1 (p : Power) (pMin : Nat) (running : Bool) (fit : Option Int) : Int :=
  match fit with
  | some m =>
    if running && decide (0 < p.pOut) && decide (pMin ≤ p.pOut) && p.ceiling == .none then
      correctAcc p.acc p.pOut m
    else p.acc
  | none => p.acc

/-- C = trunc(A / 64) (R73). -/
def correction (acc : Int) : Int := truncDiv acc 64

/-- Stage 2 for a HEAT step: round(E × |v| / 10,000) (R74). -/
def heatDemand (energy : Nat) (v : Int) : Nat := (roundDiv ((energy : Int) * v.natAbs) 10000).toNat

/-- Stage 3: round(P_base × T / 1,000) (R75). -/
def stage3 (pBase t : Nat) : Nat := (roundDiv ((pBase : Int) * t) 1000).toNat

/-- Stage 4: round(P_trim × (1,000 + C) / 1,000) (R76). -/
def stage4 (pTrim : Nat) (c : Int) : Nat := (roundDiv ((pTrim : Int) * (1000 + c)) 1000).toNat

/-- Stage 5: the ceiling and its status (R78). A value above 0 that passes a cap lying below the floor is NONE here and under-floor by
stage 6, where R79 calls such an update both LIMITED and under-floor: the model's choice, log 21. -/
def stage5 (pCorr pMax rated : Nat) : Nat × Ceiling :=
  if pCorr ≤ pMax then (pCorr, .none)
  else (pMax, if pMax = rated then .saturated else .limited)

/-- Stage 6: a value above 0 and below P_min becomes 0 and the update is under-floor (R79). -/
def stage6 (value pMin : Nat) : Nat × Bool :=
  if 0 < value ∧ value < pMin then (0, true) else (value, false)

/-- The update is a cap cut: the value lies below P_prev by more than the ramp limit, and one ramp step down would still lie above
P_max (R80). An under-floor update can be one as well (R80: "unless stage 6 has already made it yes"). -/
def capCut (value pPrev ramp pMax : Nat) : Bool :=
  decide (value + ramp < pPrev) && decide (pMax < pPrev - ramp)

/-- Stage 7: the ramp from P_prev (R80). -/
def stage7 (value pPrev ramp pMax : Nat) (underFloor : Bool) : Nat :=
  if underFloor || capCut value pPrev ramp pMax then 0
  else if pPrev + ramp < value then pPrev + ramp
  else if value + ramp < pPrev then pPrev - ramp
  else value

/-- What an update leaves: output and status (R81). -/
structure UpdateResult where
  pOut : Nat
  ceiling : Ceiling
  underFloor : Bool
  acc : Int
  deriving DecidableEq, Repr

/-- Stages 3 to 7 on a base demand (R75 to R80). -/
def stages (pBase t : Nat) (acc : Int) (pMax rated pMin pPrev ramp : Nat) : UpdateResult :=
  let five := stage5 (stage4 (stage3 pBase t) (correction acc)) pMax rated
  let six := stage6 five.1 pMin
  { pOut := stage7 six.1 pPrev ramp pMax six.2,
    ceiling := if capCut six.1 pPrev ramp pMax then .limited else five.2, underFloor := six.2,
    acc := acc }

/-- The result of a power update, from the inputs as they stand (R68, R69, R72, R74). -/
def State.updateResult (s : State) : UpdateResult :=
  let c := s.cfg.machine
  if s.forcedZero then { pOut := 0, ceiling := .none, underFloor := false, acc := s.power.acc }
  else
    let acc := stage1 s.power (floorPower c) (s.seq.state == .running) s.fitMeas
    let zeroCase : UpdateResult := { pOut := 0, ceiling := .none, underFloor := false, acc := acc }
    match s.demand with
    | .zeroCase => zeroCase
    | .heat e =>
      stages (heatDemand e s.travel.speed) s.seq.trimT acc s.pMax c.pRated (floorPower c) s.power.pOut
        c.rampLimit
    | .dwell p =>
      stages p s.seq.trimT acc s.pMax c.pRated (floorPower c) s.power.pOut c.rampLimit

/-- The setpoint code: round(P_out × 4,095 / P_rated) (R82). -/
def setpointCode (pOut rated : Nat) : Nat := (roundDiv ((pOut : Int) * 4095) rated).toNat

/-- The report of an update (R88). -/
def State.reportOf (s : State) (u : UpdateResult) : UpdateReport :=
  { pMeas := s.meas.chan.invP.published.getD 0, pOut := u.pOut, ceiling := u.ceiling,
    underFloor := u.underFloor, pyro := s.meas.chan.pyro.published }

/-- The age of a published value one ms later: it counts up to 65,535 and stays there (R122; counted by updates, log 4). -/
def ChannelRec.older (r : ChannelRec) : ChannelRec :=
  { r with age := r.age.map fun a => min (a + 1) 65535 }

def Meas.older (m : Meas) : Meas := { m with chan := .ofFn fun c => (m.chan.get c).older }

/-- The power update (R68): the result, the code on the setpoint line, the report to Zone Accounting. The update is a ms event, and
behind its reading every age is one ms older (R122, log 4). -/
def State.powerUpdate (s : State) : State :=
  let u := s.updateResult
  let s' := s.onPower fun p =>
    { p with
      pOut := u.pOut, ceiling := u.ceiling, underFloor := u.underFloor, acc := u.acc,
      code := setpointCode u.pOut s.cfg.machine.pRated }
  (s'.onZones (·.onOpen (·.report (s.seq.state == .running) s.power.inhibit (s.reportOf u)))).onMeas
    Meas.older

/-! ### Tests of published values (R86, R87) -/

/-- COIL_OVERCURRENT after a published COIL_I value (R86). -/
def coilOverAfter (c : TripCfg) (was : Bool) (value : Int) : Bool :=
  if (c.iMax : Int) < value then true
  else if value ≤ ((c.iMax * 95 / 100 : Nat) : Int) then false
  else was

/-- PYRO_HIGH after a published PYRO value (R87). -/
def pyroHighAfter (c : TripCfg) (was : Bool) (value : Int) : Bool :=
  if (c.tMax : Int) < value then true
  else if value ≤ (c.tMax : Int) - 20 then false
  else was

end Sys2Proof.Machine
end

