-- ==== Sys2Proof/Machine/Trip.lean ====
section
/-! DEFINITION. The Trip Unit (Chapter 7): raises by class, the latching trip and its record, the four responses, further trips,
the entry to TRIPPED. -/

namespace Sys2Proof.Machine

/-! ### What a trip does to the other blocks -/

/-- The emptying of queue, Next, Active, source, flow state, loader and step timer (R45, R139). A SPRAY step leaving Active closes
Q3 if SPRAY still owns it (R102), and no zone is current (R155). The PRESTART timer stops with the scan state it belongs to. -/
def State.flush (s : State) : State :=
  let spraying := match s.seq.active with | some a => (match a.step with | .spray _ => true | _ => false) | none => false
  let s1 := s.onSeq fun q =>
    { q with
      queue := [], next := none, active := none, turnPhase := .none, source := .none,
      flow := .flowing, loader := none, stepTimer := none, prestartTimer := none }
  let s2 := if spraying then s1.onQuench Quench.sprayClose else s1
  s2.onZones (·.onOpen OpenRecord.noZone)

/-- The discard order (R101). -/
def State.discard (s : State) (halt : Bool) : State := s.onQuench (·.discard halt)

/-- The flood order (R103). -/
def State.flood (s : State) : State := s.onQuench (·.floodOrder s.cfg.quench)

/-- The orders of a HALT: drive off, valves closed and trails emptied, a flood ended, pump OFF, spindle 0 (R143). -/
def State.haltOrders (s : State) : State :=
  (((s.onTravel Travel.orderDisabled).discard true).onQuench Quench.pumpOff).setSpindle 0

/-! ### The trip record (R138) -/

/-- A source joins the set of later causes, kept in code order. -/
def insertSource (src : Source) : List Source → List Source
  | [] => [src]
  | x :: rest =>
    if src = x then x :: rest
    else if src.code < x.code then src :: x :: rest
    else x :: insertSource src rest

/-- The record of a latching trip: the state and values that stand when the raise is taken (R138). -/
def State.newRecord (s : State) (src : Source) (ch : Option Channel) : TripRecord :=
  { cause := src, channel := ch, state := s.seq.state, position := s.travel.position,
    speed := s.travel.speed, pOut := s.power.pOut,
    active := s.seq.active.map fun a => (a.origin, a.index), time := s.seq.scanClock, later := [],
    count := 1 }

/-- A further trip in the record (R138). -/
def TripRecord.further (r : TripRecord) (src : Source) : TripRecord :=
  { r with later := insertSource src r.later, count := min (r.count + 1) 255 }

/-- The first cause, for the trip source of a STATE notice (R20). -/
def State.firstCause (s : State) : Option Source := s.trip.record.map (·.cause)

/-! ### The entry to TRIPPED (R144) -/

/-- The end of a scan for the Sequencer and the Profile Store: pass direction NONE, scan clock stopped, closed mark of the segment
clear, no profile in use (R3, R16, R46, R144, R178). -/
def State.scanOver (s : State) : State :=
  (s.onSeq fun q => { q with passDir := none, scanClock := none, segClosed := false }).onStore
    ({ · with inUse := none })

/-- The Sequencer enters TRIPPED: STATE notice with the first cause, spindle 0, pump idle timer, and the record of a scan closed
with a copy of the trip record (R144). -/
def State.enterTripped (s : State) : State :=
  let s1 := (s.onSeq ({ · with state := .tripped })).notify (.state .tripped .trip s.firstCause)
  let s2 := (s1.onTrip ({ · with responseDone := true })).setSpindle 0
  let s3 := if s2.quench.pump then s2.onQuench (·.idleStart s2.cfg.quench) else s2
  (s3.closeRecord .tripped s3.trip.record).scanOver

/-- The response in force has all the reports it waits for (R140 to R143). -/
def TripUnit.done (t : TripUnit) : Bool :=
  match t.response with
  | some .halt => true
  | some .stop => t.stoppedSeen
  | some .stopFlood => t.stoppedSeen && t.floodSeen
  | some .runout => t.trailsSeen && t.stoppedSeen
  | none => false

/-- TRIPPING ends when the current response is complete (R144). -/
def State.tripProgress (s : State) : State :=
  if s.seq.state == .tripping && s.trip.done then s.enterTripped else s

/-! ### Responses in TRIPPING -/

/-- A response comes into force with its progress cleared. -/
def State.respond (s : State) (r : Response) : State :=
  s.onTrip fun t =>
    { t with
      response := some r, responseDone := false, trailsSeen := false, stoppedSeen := false,
      floodSeen := false }

/-- STOPPING is ordered; a carriage that already meets the stopped condition counts as stopped (R141, R142). -/
def State.stopCarriage (s : State) : State :=
  (s.onTravel Travel.orderStopping).onTrip ({ · with stoppedSeen := s.travel.stopped })

/-- STOP (R141). -/
def State.stopResponse (s : State) : State := ((s.respond .stop).discard false).stopCarriage

/-- STOP_FLOOD (R142). The flood takes Q3 over before the discard, which leaves Q3 alone. -/
def State.stopFloodResponse (s : State) : State :=
  ((s.respond .stopFlood).flood.discard false).stopCarriage

/-- HALT (R143). -/
def State.haltResponse (s : State) : State := (s.respond .halt).haltOrders

/-- A raise of a TRIP-class source while the latch is set (R146, R147). -/
def State.furtherTrip (s : State) (src : Source) : State :=
  let s1 := s.onTrip fun t => { t with record := t.record.map (·.further src) }
  let wants := s.cfg.trip.responseOf src
  match s.seq.state with
  | .tripping =>
    if wants = .halt then s1.zeroOrder.haltResponse.tripProgress
    else if s.trip.response = some .runout then s1.zeroOrder.stopFloodResponse.tripProgress
    else s1
  | .tripped => if wants = .halt then s1.haltOrders else s1
  | _ => s1

/-- The OFF requests of a RUNOUT response at the coil position; a failed append raises TRAIL_FULL, a further trip (R95, R96,
R140). -/
def State.responseOffRequests (s : State) : State :=
  let s1 := s.onQuench (·.offRequests s.seq.passDir s.travel.position)
  if s1.quench.trailFull && !s.quench.trailFull then s1.furtherTrip .trailFull else s1

/-- RUNOUT: the trails finish with the power off, then the carriage stops. A carriage in the RETURN of a turn first comes to rest
(R140). -/
def State.runoutResponse (s : State) : State :=
  let s1 := (s.respond .runout).responseOffRequests
  if s1.seq.state == .tripping && s1.trip.response == some .runout then
    if s1.quench.trailsEmpty then
      (s1.onTrip ({ · with trailsSeen := true })).stopCarriage
    else if s.travel.mode = .target then s1.onTravel Travel.orderStopping
    else s1.onTravel (·.orderDrain s1.seq.passDir s1.runoutSpeed)
  else s1

/-! ### The latching trip (R137, R139, R145) -/

/-- The response of a latching trip: the source's, with RUNOUT replaced by STOP_FLOOD in RUNOUT (R137). -/
def State.chosenResponse (s : State) (src : Source) : Response :=
  let r := s.cfg.trip.responseOf src
  if r = .runout ∧ s.seq.state = .runout then .stopFlood else r

/-- The orders that every response starts with: zero order, the end cause TRIPPED in a scan state, the flush (R139). A flood order
goes with the flush, so that it takes Q3 over as it stands (R102). -/
def State.tripOrders (s : State) (r : Response) : State :=
  let s1 := s.zeroOrder
  let s2 := if s.seq.state.isScan then s1.onSeq ({ · with lastEnd := some .tripped }) else s1
  (if r = .stopFlood then s2.flood else s2).flush

/-- The response's own orders in a state that has a motion or a scan to stop (R140 to R143). -/
def State.orderResponse (s : State) (r : Response) : State :=
  match r with
  | .runout => s.runoutResponse
  | .stop => s.stopResponse
  | .stopFlood => s.stopFloodResponse
  | .halt => s.haltResponse

/-- The orders in IDLE or UNREFERENCED, where the carriage stands and TRIPPED follows directly (R145). -/
def State.orderAtRest (s : State) (r : Response) : State :=
  let s1 := s.respond r
  match r with
  | .runout => s1
  | .stop => s1.discard false
  | .stopFlood => s1.flood.discard false
  | .halt => s1.haltOrders

/-- A raise of a TRIP-class source with the latch clear (R137). -/
def State.latchingTrip (s : State) (src : Source) (ch : Option Channel) : State :=
  let r := s.chosenResponse src
  let s1 := (s.onTrip ({ · with latch := true, record := some (s.newRecord src ch) })).tripOrders r
  if s.seq.state.isRest then
    ((s1.orderAtRest r).notify (.trip src ch)).enterTripped
  else
    let s2 := (s1.onSeq ({ · with state := .tripping })).orderResponse r
    let s3 := (s2.notify (.trip src ch)).notify (.state .tripping .trip (some src))
    s3.tripProgress

/-! ### Raises (R130, R135 to R137) -/

/-- The WARN flag of a raise: the zone of the heating step in RUNNING, the record as a whole otherwise (R135). -/
def State.warnRaise (s : State) : State := s.onZones (·.onOpen (·.warnFlag s.heatingZone))

/-- A source is raised: dealt with by its class. The condition itself has been made present before (R130). -/
def State.raise (s : State) (src : Source) (ch : Option Channel := none) : State :=
  match s.classOf src with
  | .warn => s.warnRaise
  | .limit => s
  | .trip => if s.trip.latch then s.furtherTrip src else s.latchingTrip src ch

/-- A condition changed from `was` to `now`; its becoming present raises the source (R130). -/
def State.raiseIf (s : State) (was now : Bool) (src : Source) (ch : Option Channel := none) : State :=
  if now && !was then s.raise src ch else s

/-- The raises that stand for a present source: one, or one for each faulted channel of SENSOR_FAULT in channel order
(R151, R152). -/
def State.raisesOf (s : State) (src : Source) : List (Source × Option Channel) :=
  if s.present src then
    if src = .sensorFault then
      (Channel.all.filter fun c => (s.meas.chan.get c).sensorFault).map fun c => (src, some c)
    else [(src, none)]
  else []

/-- Present sources that pass a test are taken as raised, in ascending order of their codes (R151, R152). -/
def State.raisePresent (s : State) (test : Source → Bool) : State :=
  ((Source.all.filter test).flatMap s.raisesOf).foldl (fun t p => t.raise p.1 p.2) s

end Sys2Proof.Machine
end

