-- ==== Sys2Proof/Machine/Sequencer.lean ====
section
/-! DEFINITION. The Scan Sequencer (Chapter 2): ends of a scan, trims, activation, turns, step ends, the source steps at the
queue head, admission, the loader, flow control, and what a STOPPED report does in each state. -/

namespace Sys2Proof.Machine

/-! ### The Profile Store as the Sequencer reads it (R19, R181) -/

def Store.page (st : Store) (i : Nat) : Page := st.pages.getD i .free

/-- Step index i of a profile: slot i mod 40 of page first + i div 40 (R19). -/
def Store.stepAt (st : Store) (first i : Nat) : Option ScanStep :=
  (st.page (first + i / pageSlots)).slots.getD (i % pageSlots) none

/-- Step count of the profile of a first page. -/
def Store.stepCount (st : Store) (first : Nat) : Nat :=
  match (st.page first).header with
  | some h => h.steps
  | none => 0

/-- The page is the first page of a WRITTEN profile (R23). -/
def Store.isWrittenFirst (st : Store) (p : Nat) : Bool :=
  decide (p < pageCount) && (st.page p).state == .written && (st.page p).owner == some p

/-! ### The end of a scan -/

/-- Exit from PRESTART to IDLE (R26): the same at the timeout, at STOP and at PROGRAM_ERROR, each with its end cause. -/
def State.exitPrestart (s : State) (cause : EndCause) : State :=
  let s1 := (s.onSeq ({ · with lastEnd := some cause })).flush.zeroOrder.setSpindle 0
  let s2 := (s1.onQuench (·.idleStart s1.cfg.quench)).enter .idle (.scanEnd cause)
  (s2.closeRecord cause none).scanOver

/-- Completion of run-out (R46): IDLE, the record closed with the end cause fixed at RUNOUT entry, the pump idle timer started. -/
def State.runoutComplete (s : State) : State :=
  let cause := s.seq.lastEnd.getD .complete
  let s1 := (s.enter .idle (.scanEnd cause)).closeRecord cause none
  (s1.onQuench (·.idleStart s1.cfg.quench)).scanOver

/-- The motion of a run-out (R46): none left to do when the trails are empty and the carriage is at rest; a stop when they are
empty; otherwise a drain, after coming to rest when the carriage was in RETURN. The first changes no mode (R51). -/
def State.runoutMotion (s : State) (returning : Bool) : State :=
  if s.seq.state = .runout then
    if s.quench.trailsEmpty then
      if s.travel.atRest then (s.onTravel Travel.standing).runoutComplete
      else s.onTravel Travel.orderStopping
    else if returning then s.onTravel Travel.orderStopping
    else s.onTravel (·.orderDrain s.seq.passDir s.runoutSpeed)
  else s

/-- The MARK notices of some mark numbers, in order (R32). -/
def State.sendMarks (s : State) (marks : List Nat) : State := marks.foldl (fun t n => t.notify (.mark n)) s

/-- A change of the trails that may have set a TRAIL_FULL mark: the condition's becoming present is raised (R96). -/
def State.onTrails (s : State) (f : Quench → Quench) : State :=
  let s1 := s.onQuench f
  s1.raiseIf s.quench.trailFull s1.quench.trailFull .trailFull

/-- RUNOUT entry (R45). `stop` is the nominal end of the Active step when RUNOUT begins at a step end; in every other case the OFF
entries take the present coil position. -/
def State.runoutEntry (s : State) (cause : EndCause) (stop : Option Int) : State :=
  let returning := s.seq.turnPhase == .return
  let marks := headMarks s.seq.queue
  let s1 := (s.onSeq ({ · with lastEnd := some cause })).enter .runout (.scanEnd cause)
  let s2 := ((s1.zeroOrder.setSpindle 0).sendMarks marks).flush
  let s3 := s2.onTrails (·.offRequests s2.seq.passDir (stop.getD s2.travel.position))
  s3.runoutMotion returning

/-- RUNNING with Active and Next empty and turn phase NONE enters RUNOUT when the program is at its end or the supply is lost, and
waits otherwise (R25). -/
def State.vacantCheck (s : State) : State :=
  if s.vacant && s.seq.next.isNone then
    if onlyMarks s.seq.queue then
      if s.seq.programEnd then s.runoutEntry .complete none else s
    else if !s.quench.supplyReady then s.runoutEntry .supplyLost none
    else s
  else s

/-! ### Trims (R40, R41) -/

/-- The shadow becomes the active trims and shadow-full is cleared. -/
def Seq.transfer (q : Seq) : Seq :=
  match q.shadow with
  | some sh => { q with trimT := sh.t, trimS := sh.s, shadow := none }
  | none => q

/-- The transfer at an activation: method STEP at any, method ZONE at a HEAT or DWELL whose zone differs from the last zone or
with the last zone absent (R41). -/
def Seq.transferAt (q : Seq) (zone : Option Nat) : Seq :=
  match q.shadow with
  | some sh =>
    match sh.method with
    | .step => q.transfer
    | .zone => if zone.isSome && zone != q.lastZone then q.transfer else q
    | .immediate => q
  | none => q

/-- An IMMEDIATE transfer while a HEAT step is Active hands the Travel Unit the new trimmed speed (R41, R58). -/
def State.retrim (s : State) : State :=
  match s.seq.active with
  | some a =>
    match a.step with
    | .heat _ v _ _ _ _ _ =>
      let sp := trimmedSpeed v s.seq.trimS
      (s.onTravel fun t => if t.mode = .scan then { t with targetSpeed := sp } else t).onSeq
        ({ · with heatSpeed := some sp })
    | _ => s
  | none => s

/-! ### Activation (R33) -/

/-- The Travel Unit's share of an activation; a HEAT step's commanded speed is kept for the run-out (R33, R46, R55, R57). -/
def State.handTravel (s : State) (a : Admitted) : State :=
  match a.step with
  | .heat _ v _ _ _ _ _ =>
    let sp := trimmedSpeed v s.seq.trimS
    (s.onTravel (·.orderScan (a.dir.getD .forward) sp)).onSeq ({ · with heatSpeed := some sp })
  | .move _ v _ _ => s.onTravel (·.orderScan (a.dir.getD .forward) v)
  | _ => s.onTravel Travel.orderHold

/-- Zone Accounting's share: the current zone, and the WARN flag of a present WARN source (R135, R155). -/
def State.handZones (s : State) (a : Admitted) : State :=
  let heat := match a.step with | .heat .. => true | _ => false
  let s1 := s.onZones (·.onOpen (·.activated a.step.zone? heat))
  if a.step.zone?.isSome && !(s.presentIn .warn).isEmpty then
    s1.onZones (·.onOpen (·.warnFlag a.step.zone?))
  else s1

/-- The spindle's share: a spin field, when present (R7, R64). -/
def State.handSpindle (s : State) (a : Admitted) : State :=
  match a.step.spin? with
  | some r => s.setSpindle r
  | none => s

/-- The Quench Unit's share: trail entries at the nominal start, or Q3 opened (R94, R102). -/
def State.handQuench (s : State) (a : Admitted) : State :=
  let set : QSetting → QSetting → State := fun x y =>
    s.onTrails fun q => (q.setting s.seq.passDir .q1 x a.start).setting s.seq.passDir .q2 y a.start
  match a.step with
  | .heat _ _ _ _ x y _ => set x y
  | .move _ _ x y => set x y
  | .spray _ => s.onQuench (·.sprayOpen s.cfg.quench)
  | _ => s

/-- The Sequencer's own share: trims, the pass of a turn step, the last zone, the slots and the step timer (R33, R34). -/
def Seq.activated (q : Seq) (a : Admitted) : Seq :=
  let q1 := q.transferAt a.step.zone?
  let q2 := if a.turn then { q1 with passDir := a.dir, heatSpeed := none } else q1
  { q2 with
    lastZone := match a.step.zone? with | some z => some z | none => q2.lastZone
    active := some a
    next := none
    turnPhase := .none
    stepTimer := a.step.duration? }

/-- Activation: the step in Next becomes Active and is handed to the blocks (R33). -/
def State.activate (s : State) (a : Admitted) : State :=
  let s1 := (s.onSeq (·.activated a)).sendMarks a.marks
  ((((s1.handTravel a).handZones a).handSpindle a).handQuench a)

/-! ### Turns (R43, R44) -/

/-- The DRAIN phase: the carriage is driven on in the old pass direction at the run-out speed (R44). -/
def State.beginDrain (s : State) : State :=
  (s.onSeq ({ · with turnPhase := .drain })).onTravel (·.orderDrain s.seq.passDir s.runoutSpeed)

/-- With Active empty and turn phase NONE, the step in Next is activated; a turn step first waits for the trails or for the stopped
condition, the generator in HOLD (R25, R35, R43, R57). -/
def State.proceed (s : State) : State :=
  match s.seq.next with
  | some a =>
    if a.turn then
      if s.quench.trailsEmpty then s.onTravel Travel.orderHold else s.beginDrain
    else s.activate a
  | none => s.onTravel Travel.orderHold

/-- The turn's RETURN: back to the old step's nominal end, which is the turn step's nominal start, at the return speed (R44). -/
def State.beginReturn (s : State) : State :=
  match s.seq.next with
  | some a =>
    (s.onSeq ({ · with turnPhase := .return })).onTravel
      (·.orderTarget a.start s.cfg.machine.returnSpeed)
  | none => s

/-! ### The step end (R35) -/

/-- Active is emptied; a SPRAY step closes Q3; no zone is current (R35, R102, R155). -/
def State.clearActive (s : State) (a : Admitted) : State :=
  let s1 := s.onSeq ({ · with active := none, stepTimer := none })
  let s2 := match a.step with | .spray _ => s1.onQuench Quench.sprayClose | _ => s1
  s2.onZones (·.onOpen OpenRecord.noZone)

/-- The step end (R35). With Next empty, a queue that still holds a step while Supply Ready is true has an admission due (R30):
the Sequencer then stands in RUNNING with Active empty, and that admission makes the step Active at once (R25, log 14). -/
def State.stepEnd (s : State) : State :=
  match s.seq.active with
  | none => s
  | some a =>
    let s1 := s.clearActive a
    if s1.seq.next.isSome then s1.proceed
    else if onlyMarks s1.seq.queue then
      s1.runoutEntry (if s1.seq.programEnd then .complete else .starved) (some a.stop)
    else if s1.quench.supplyReady then s1.onTravel Travel.orderHold
    else s1.runoutEntry .supplyLost (some a.stop)

/-! ### Flow control (R39) -/

/-- A fall of the fill by a step leaving the queue: HELD becomes RELEASED at the low mark, with GO. -/
def State.flowFall (s : State) : State :=
  if s.seq.flow = .held ∧ s.seq.queue.length ≤ s.cfg.flow.low then
    (s.onSeq ({ · with flow := .released })).notify (.flow true)
  else s

/-- A STEP accepted, the fill after it tested against the high mark; the RESUME or END that closes the segment sets FLOWING without
a notice. -/
def State.flowStep (s : State) (step : ScanStep) : State :=
  if step.closes then s.onSeq ({ · with flow := .flowing })
  else if s.seq.flow = .held then s
  else if s.cfg.flow.high ≤ s.seq.queue.length then
    (s.onSeq ({ · with flow := .held })).notify (.flow false)
  else s.onSeq ({ · with flow := .flowing })

/-! ### Source steps at the queue head (R29, R38) -/

/-- The queue less its first non-MARK step; the marks ahead of it stay. -/
def dropFirstNonMark : List QStep → List QStep
  | [] => []
  | q :: rest => if q.step.isMark then q :: dropFirstNonMark rest else rest

/-- The loader after a RESUME at the head: RUNNING from the index after the SPLICE, or EXHAUSTED at the step count (R36). -/
def State.resumeLoader (s : State) : State :=
  match s.seq.loader with
  | some l =>
    if l.index < s.store.stepCount l.page then
      s.onSeq ({ · with loader := some { l with state := .running } })
    else s.onSeq ({ · with loader := some { l with state := .exhausted }, programEnd := true })
  | none => s

/-- A SPLICE, RESUME or END at the queue head is removed and acts (R38). That the SPLICE notice stands before FLOW GO is the model's
choice: R13 names them the other way round and neither rule fixes an order (log 13). -/
def State.sourceHead (s : State) : State :=
  match firstNonMark s.seq.queue with
  | some (q, _) =>
    let s1 := s.onSeq fun x => { x with queue := dropFirstNonMark x.queue }
    match q.step with
    | .splice id =>
      ((s1.onSeq ({ · with
          source := .link, segKind := some .splice, segClosed := false, flow := .flowing })).notify
        (.splice id)).notify (.flow true)
    | .resume => (s1.onSeq ({ · with source := .profile, flow := .flowing })).resumeLoader
    | .finish => s1.onSeq ({ · with programEnd := true })
    | _ => s
  | none => s

/-! ### Admission (R30, R31) -/

/-- Admission's four conditions, in PRESTART and in RUNNING (R30). -/
def State.admissionDue (s : State) : Bool :=
  (s.seq.state == .prestart || s.seq.state == .running) && s.seq.next.isNone && s.quench.supplyReady &&
    (match firstNonMark s.seq.queue with | some (q, _) => !q.step.isSource | none => false)

/-- The admitted form of a step: nominal start and end, direction, turn mark, attached marks (R3, R30, R32). -/
def State.admitStep (s : State) (q : QStep) : Admitted :=
  let stop := q.step.stop?.getD s.seq.nominal
  let dir := if q.step.isMotion then dirTo s.seq.nominal stop else none
  { step := q.step, origin := q.origin, index := q.index, start := s.seq.nominal, stop := stop,
    dir := dir,
    turn := (match dir, s.seq.passDir with | some d, some p => d == p.opposite | _, _ => false)
    marks := headMarks s.seq.queue }

/-- The checks of R31: zero length, soft limits, zone index. -/
def State.admissible (s : State) (a : Admitted) : Bool :=
  (!a.step.isMotion ||
    (decide (a.start ≠ a.stop) &&
      inRange s.cfg.machine.softLow s.cfg.machine.softHigh a.stop)) &&
  (match a.step.zone? with | some z => decide (z < s.seq.zoneCount) | none => true)
where
  inRange (lo hi x : Int) : Bool := decide (lo ≤ x) && decide (x ≤ hi)

/-- A failed check ends the scan with PROGRAM_ERROR: by the exit from PRESTART, or by RUNOUT from the present motion (R31). -/
def State.programError (s : State) : State :=
  if s.seq.state = .prestart then s.exitPrestart .programError else s.runoutEntry .programError none

/-- Admission of the first non-MARK step (R30 to R32); then the fall of the fill (R39), a source step that has come to the head
(R29), and an empty Active (R25). -/
def State.admission (s : State) : State :=
  if s.admissionDue then
    match firstNonMark s.seq.queue with
    | some (q, rest) =>
      let a := s.admitStep q
      if s.admissible a then
        let s1 := s.onSeq fun x =>
          { x with
            queue := rest, next := some a, nominal := a.stop,
            passDir := if x.passDir.isNone then a.dir else x.passDir }
        let s2 := s1.flowFall.sourceHead
        if s2.vacant then s2.proceed else s2
      else s.programError
    | none => s
  else s

/-! ### The loader (R36) -/

/-- The loader may append: RUNNING, room in the queue, in PRESTART or RUNNING. -/
def State.loaderDue (s : State) : Bool :=
  (s.seq.state == .prestart || s.seq.state == .running) && decide (s.seq.queue.length < queueCap) &&
    (match s.seq.loader with | some l => l.state == .running | none => false)

/-- The loader after appending the step at its index (R36). -/
def loaderAfter (l : Loader) (step : ScanStep) (count : Nat) : Loader :=
  { l with
    index := l.index + 1
    state := (match step with
      | .splice _ => .atSplice
      | _ => if l.index + 1 = count then .exhausted else .running) }

/-- One append of the loader (R36); a SPLICE that joins a queue of marks acts at once (R29). -/
def State.loaderAppend (s : State) : State :=
  if s.loaderDue then
    match s.seq.loader with
    | some l =>
      match s.store.stepAt l.page l.index with
      | some step =>
        let l' := loaderAfter l step (s.store.stepCount l.page)
        let s1 := s.onSeq fun x =>
          { x with
            queue := x.queue ++ [⟨step, .profile, l.index⟩], loader := some l',
            programEnd := x.programEnd || l'.state == .exhausted }
        s1.sourceHead.vacantCheck
      | none => s
    | none => s
  else s

/-! ### The entry to RUNNING (R25) -/

/-- Supply Ready, READY and the spindle hold together in PRESTART (R25). -/
def State.runningDue (s : State) : Bool :=
  s.seq.state == .prestart && s.quench.supplyReady && s.inputs.ready && s.travel.spindleReady

def State.enterRunning (s : State) : State :=
  if s.runningDue then
    (((s.onSeq ({ · with prestartTimer := none })).enter .running .ready).proceed).vacantCheck
  else s

/-! ### The end of a turn (R43, R44) -/

/-- With both trails empty at the step end, the turn step waits for the stopped condition (R43). -/
def State.turnActivationDue (s : State) : Bool :=
  s.vacant && (match s.seq.next with | some a => a.turn | none => false) && s.quench.trailsEmpty &&
    s.travel.stopped

def State.turnStoppedActivation (s : State) : State :=
  if s.turnActivationDue then
    match s.seq.next with
    | some a => s.activate a
    | none => s
  else s

/-- RETURN completes: plan at the stop point, planned speed 0, stopped condition (R51). -/
def State.returnDue (s : State) : Bool :=
  s.seq.state == .running && s.seq.turnPhase == .return && s.travel.mode == .target && s.travel.atRest &&
    (match s.travel.stopPoint with | some p => s.travel.plan == p * 1000 | none => false)

def State.returned (s : State) : State :=
  if s.returnDue then
    match s.seq.next with
    | some a => s.activate a
    | none => s
  else s

/-- Both trails have become empty by release: the DRAIN of a turn, a run-out or a RUNOUT response begins its stop (R100). -/
def State.trailsEmptyReport (s : State) : State :=
  match s.seq.state with
  | .running =>
    if s.seq.turnPhase = .drain then
      (s.onSeq ({ · with turnPhase := .stopping })).onTravel Travel.orderStopping
    else s
  | .runout => s.onTravel Travel.orderStopping
  | .tripping =>
    if s.trip.response = some .runout then
      (s.onTrip ({ · with trailsSeen := true })).onTravel Travel.orderStopping
    else s
  | _ => s

/-! ### The STOPPED report (R51) -/

/-- The end of a homing run (R62, R27). -/
def State.homingEnd (s : State) : State :=
  if s.travel.switchFound then
    (s.onTravel (·.redefine s.cfg.machine.reference)).enter .idle .homed
  else s.enter .unreferenced (if s.seq.stopTaken then .stopped else .homeFailed)

/-- STOPPED in a trip response (R140 to R142): a RUNOUT that came out of RETURN drains now. -/
def State.trippingStopped (s : State) : State :=
  if s.trip.response = some .runout ∧ s.quench.trailsEmpty = false then
    s.onTravel (·.orderDrain s.seq.passDir s.runoutSpeed)
  else
    (s.onTrip fun t => { t with stoppedSeen := true, trailsSeen := s.quench.trailsEmpty }).tripProgress

/-- The STOPPING mode completes: HOLD, and STOPPED is reported to the state it came in (R51). -/
def State.stoppingComplete (s : State) : State :=
  if s.travel.mode = .stopping ∧ s.travel.atRest = true then
    let s1 := s.onTravel Travel.orderHold
    match s.seq.state with
    | .homing => s1.homingEnd
    | .positioning => s1.enter .idle .stopped
    | .running => if s.seq.turnPhase = .stopping then s1.beginReturn else s1
    | .runout =>
      if s1.quench.trailsEmpty then s1.runoutComplete
      else s1.onTravel (·.orderDrain s1.seq.passDir s1.runoutSpeed)
    | .tripping => s1.trippingStopped
    | .unreferenced | .idle | .prestart | .tripped => s1
  else s

end Sys2Proof.Machine
end

