-- ==== Sys2Proof/Machine/Store.lean ====
section
/-! DEFINITION. The Profile Store (Chapter 9): opening, writing, closing, erasing and listing of profiles, and what the
Sequencer reads of a profile at START. -/

namespace Sys2Proof.Machine

/-! ### Pages -/

/-- Every page of a list changed by its number, counting from `i`. -/
def mapPagesFrom (f : Nat → Page → Page) : Nat → List Page → List Page
  | _, [] => []
  | i, p :: rest => f i p :: mapPagesFrom f (i + 1) rest

/-- Every page of the store changed by its number. -/
def Store.mapPages (st : Store) (f : Nat → Page → Page) : Store :=
  { st with pages := mapPagesFrom f 0 st.pages }

/-- No written mark. -/
def Store.clearMarks (st : Store) : Store :=
  { st with
    zoneMarks := List.replicate zonePlaces false
    stepMarks := List.replicate (8 * pageSlots) false }

/-- The first page of the profile in a state (R170, R171). -/
def Store.isFirst (st : Store) (p : Nat) (state : PageState) : Bool :=
  decide (p < pageCount) && (st.page p).state == state && (st.page p).owner == some p

/-- The header of a first page. -/
def Store.header (st : Store) (p : Nat) : Header := ((st.page p).header).getD ⟨0, 0, 0, 0⟩

/-- Every page of a profile returns to FREE, its contents dropped (R177, R179). -/
def Store.freeProfile (st : Store) (p : Nat) : Store :=
  st.mapPages fun _ pg => if pg.owner = some p then .free else pg

/-! ### Opening (R172, R173) -/

/-- The page numbers page..page + size − 1. -/
def pageRange (page size : Nat) : List Nat := (List.range size).map (page + ·)

/-- The answer to PROFILE-OPEN: the first failing check, or OK (R172). -/
def Store.openResult (st : Store) (page size zones steps : Nat) : ResultCode :=
  if page ≥ pageCount || !([1, 2, 4, 8].contains size) || zones < 1 || zones > zonePlaces || steps = 0 then
    .invalid
  else if page % size ≠ 0 then .align
  else if steps > pageSlots * size then .size
  else if st.pages.any (·.state == .opened) then .openProfile
  else if (pageRange page size).any fun i => (st.page i).state != .free then .occupied
  else .ok

/-- The pages of an accepted PROFILE-OPEN (R173). -/
def Store.openProfile (st : Store) (page size zones steps : Nat) (tag : Tag8) : Store :=
  Store.clearMarks (st.mapPages fun i pg =>
    if page ≤ i ∧ i < page + size then
      { Page.free with
        state := .opened, owner := some page,
        header := if i = page then some ⟨tag, size, zones, steps⟩ else none }
    else pg)

/-! ### Writing (R174, R175) -/

/-- The check of one record: RANGE or INVALID, or none when it passes (R175). A record that fails both checks is answered RANGE (the
model's choice, log 33). -/
def DataRecord.check (h : Header) : DataRecord → Option ResultCode
  | .zone i w =>
    if h.zones ≤ i then some .range
    else if (Window.ofRecord w).isNone then some .invalid
    else none
  | .step i r =>
    if h.steps ≤ i then some .range
    else
      match ScanStep.ofRecord r with
      | none => some .invalid
      | some st => if st.closes then some .invalid else none

/-- The first failing record: its code and its position in the request, counted from `n` (R175). -/
def firstFailure (h : Header) : Nat → List DataRecord → Option (ResultCode × Nat)
  | _, [] => none
  | n, r :: rest =>
    match DataRecord.check h r with
    | some c => some (c, n)
    | none => firstFailure h (n + 1) rest

/-- The answer to PROFILE-DATA and its position field (R174, R175; the kind table of 10.8: no position with STATE, nor with the
INVALID of a request without records). -/
def Store.dataResult (st : Store) (page : Nat) (records : List DataRecord) : ResultCode × List Byte :=
  if st.isFirst page .opened then
    if records.isEmpty then (.invalid, [])
    else
      match firstFailure (st.header page) 1 records with
      | some (c, n) => (c, [byteOf n])
      | none => (.ok, [0#8])
  else (.state, [])

/-- One record written: a window to its place or a step to its slot, and the written mark of its index (R19, R175). -/
def Store.writeRecord (st : Store) (page : Nat) : DataRecord → Store
  | .zone i w =>
    let st1 := st.mapPages fun k pg =>
      if k = page then { pg with windows := pg.windows.set i (Window.ofRecord w) } else pg
    { st1 with zoneMarks := st1.zoneMarks.set i true }
  | .step i r =>
    let st1 := st.mapPages fun k pg =>
      if k = page + i / pageSlots then
        { pg with slots := pg.slots.set (i % pageSlots) (ScanStep.ofRecord r) }
      else pg
    { st1 with stepMarks := st1.stepMarks.set i true }

/-- All records written in request order (R175). -/
def Store.writeRecords (st : Store) (page : Nat) (records : List DataRecord) : Store :=
  records.foldl (fun a r => a.writeRecord page r) st

/-! ### Closing (R176, R177) -/

inductive CloseReason where
  | none | missingZone | missingStep | badZone
  deriving DecidableEq, Repr

/-- The lowest index below `n` without its mark. -/
def firstUnmarked (marks : List Bool) (n : Nat) : Option Nat :=
  (List.range n).find? fun i => !(marks.getD i false)

/-- The lowest step index that fails check 3 (R176). -/
def Store.firstBad (st : Store) (page : Nat) (h : Header) : Option Nat :=
  (List.range h.steps).find? fun i =>
    match st.stepAt page i with
    | some s => s.closes || (match s.zone? with | some z => decide (h.zones ≤ z) | none => false)
    | none => false

/-- The three checks of PROFILE-CLOSE in order: reason and index, NONE and 0 when all pass (R176). -/
def Store.closeReason (st : Store) (page : Nat) : CloseReason × Nat :=
  let h := st.header page
  match firstUnmarked st.zoneMarks h.zones with
  | some i => (.missingZone, i)
  | none =>
    match firstUnmarked st.stepMarks h.steps with
    | some i => (.missingStep, i)
    | none =>
      match st.firstBad page h with
      | some i => (.badZone, i)
      | none => (.none, 0)

def CloseReason.code : CloseReason → Nat
  | .none => 0 | .missingZone => 1 | .missingStep => 2 | .badZone => 3

/-- The answer to PROFILE-CLOSE (R176, R177). -/
def Store.closeResult (st : Store) (page : Nat) : ResultCode × List Byte :=
  if st.isFirst page .opened then
    let r := st.closeReason page
    (if r.1 = .none then .ok else .incomplete, byteOf r.1.code :: be2 r.2)
  else (.state, [])

/-- The pages after PROFILE-CLOSE of the OPEN profile: WRITTEN, or FREE again (R176, R177). -/
def Store.closeProfile (st : Store) (page : Nat) : Store :=
  if (st.closeReason page).1 = .none then
    Store.clearMarks
      (st.mapPages fun _ pg => if pg.owner = some page then { pg with state := .written } else pg)
  else (st.freeProfile page).clearMarks

/-! ### Erasing (R179) -/

/-- The answer to PROFILE-ERASE (R179). -/
def Store.eraseResult (st : Store) (page : Nat) : ResultCode :=
  if page ≥ pageCount then .invalid
  else if (st.page page).state = .free ∨ (st.page page).owner ≠ some page then .notFound
  else if st.inUse = some page then .inUse
  else .ok

/-- The pages after an accepted erase; the written marks go with an OPEN profile (R179). -/
def Store.eraseProfile (st : Store) (page : Nat) : Store :=
  if (st.page page).state = .opened then (st.freeProfile page).clearMarks else st.freeProfile page

/-! ### Listing (R180) -/

def PageState.code : PageState → Nat
  | .free => 0 | .opened => 1 | .written => 2

/-- Set marks (R180). -/
def countMarks (marks : List Bool) : Nat := (marks.filter id).length

def flagByte (b : Bool) : Byte := if b then 1#8 else 0#8

/-- The entry of one page, 18 bytes (10.8). -/
def Store.entry (st : Store) (i : Nat) : List Byte :=
  let pg := st.page i
  let zeros : Nat → List Byte := fun n => List.replicate n 0#8
  match pg.owner with
  | none => byteOf pg.state.code :: 0xFF#8 :: zeros 16
  | some o =>
    if o = i then
      let h := st.header i
      let isOpen := pg.state == .opened
      [byteOf pg.state.code, byteOf o, byteOf h.size, flagByte (st.inUse == some i), byteOf h.zones,
        byteOf (if isOpen then countMarks st.zoneMarks else 0)] ++ be2 h.steps ++
        be2 (if isOpen then countMarks st.stepMarks else 0) ++ be8 h.tag
    else byteOf pg.state.code :: byteOf o :: zeros 16

/-- The reply payload of PROFILE-LIST: 16 entries (R180). -/
def Store.listPayload (st : Store) : List Byte := (List.range pageCount).flatMap st.entry

/-! ### What START-PROFILE reads (R24, R181) -/

/-- The windows of zones 0 to zone count less one. -/
def Store.windowsOf (st : Store) (page : Nat) : List Window :=
  ((st.page page).windows.take (st.header page).zones).filterMap id

/-- The spin of the first HEAT or DWELL with a spin field, looking at `n` indices from `i`, before any SPLICE; 0 when none is found
(R24). -/
def Store.firstSpinFrom (st : Store) (page : Nat) : Nat → Nat → Nat
  | 0, _ => 0
  | n + 1, i =>
    match st.stepAt page i with
    | some (.splice _) => 0
    | some s => match s.spin? with | some r => r | none => st.firstSpinFrom page n (i + 1)
    | none => 0

/-- The spindle command of START-PROFILE (R24). -/
def Store.firstSpin (st : Store) (page : Nat) : Nat := st.firstSpinFrom page (st.stepCount page) 0

end Sys2Proof.Machine
end

