-- ==== Sys2Proof/Machine/Link.lean ====
section
/-! DEFINITION. The Cell Link (Chapter 10): the codes of R198, the payloads the part sends, the receiver, the arrival of a
request, and the placing of its reply. -/

namespace Sys2Proof.Machine

/-! ### Codes (R198, 10.8) -/

def SeqState.code : SeqState → Nat
  | .unreferenced => 1 | .idle => 2 | .homing => 3 | .positioning => 4 | .prestart => 5
  | .running => 6 | .runout => 7 | .tripping => 8 | .tripped => 9

def EndCause.code : EndCause → Nat
  | .complete => 9 | .stopped => 6 | .starved => 10 | .supplyLost => 11 | .prestartTimeout => 12
  | .programError => 13 | .tripped => 14

def Cause.code : Cause → Nat
  | .home => 1 | .homed => 2 | .homeFailed => 3 | .moveTo => 4 | .arrived => 5 | .stopped => 6
  | .start => 7 | .ready => 8 | .scanEnd c => c.code | .cleared => 15 | .restart => 16
  | .trip => 17 | .reset => 18

def Verdict.code : Verdict → Nat
  | .pass => 1 | .reject => 2 | .notRun => 3

def Origin.code : Origin → Nat
  | .profile => 1 | .link => 2

def StepSource.code : StepSource → Nat
  | .none => 0 | .profile => 1 | .link => 2

def FlowState.code : FlowState → Nat
  | .flowing => 1 | .held => 2 | .released => 3

def TrimMethod.code : TrimMethod → Nat
  | .immediate => 1 | .step => 2 | .zone => 3

def ResultCode.code : ResultCode → Nat
  | .ok => 0x00 | .clamped => 0x01 | .replaced => 0x02 | .busy => 0x10 | .badKind => 0x11
  | .badLength => 0x12 | .state => 0x13 | .notHomed => 0x14 | .notFound => 0x15
  | .recordsFull => 0x16 | .invalid => 0x17 | .source => 0x18 | .queueFull => 0x19
  | .stillPresent => 0x1A | .inUse => 0x1B | .align => 0x1C | .occupied => 0x1D
  | .openProfile => 0x1E | .size => 0x1F | .range => 0x20 | .incomplete => 0x21

/-- A source, or 0xFF for none. -/
def sourceByte (s : Option Source) : Byte := match s with | some x => byteOf x.code | none => 0xFF#8

/-- A channel, or 0xFF for none. -/
def channelByte (c : Option Channel) : Byte := match c with | some x => byteOf x.num | none => 0xFF#8

/-- A set of sources as a 3-byte number (R198). -/
def sourceSet (xs : List Source) : List Byte := be3 (xs.map fun x => 2 ^ x.code).sum

/-- Origin and index of a step, 0 and 0 when absent (R17, R198). -/
def stepPlace (p : Option (Origin × Nat)) : List Byte :=
  match p with
  | some (o, i) => byteOf o.code :: be2 i
  | none => [0#8, 0#8, 0#8]

def Admitted.place (a : Admitted) : Origin × Nat := (a.origin, a.index)

/-! ### What goes out -/

/-- Kind byte and payload of a notice (10.8). -/
def Notice.bytes : Notice → Byte × List Byte
  | .flow go => (0x70#8, [if go then 2#8 else 1#8])
  | .splice id => (0x71#8, [byteOf id])
  | .mark n => (0x72#8, [byteOf n])
  | .state s c src => (0x73#8, [byteOf s.code, byteOf c.code, sourceByte src])
  | .trip s c => (0x74#8, [byteOf s.code, channelByte c])
  | .record n => (0x75#8, be2 n)

/-- The bytes of a frame on the line (R185, R189). -/
def OutFrame.bytes : OutFrame → List Byte
  | .reply r => frameBytes r.kind r.tag (byteOf r.result.code :: r.payload)
  | .notice n => frameBytes n.bytes.1 0#8 n.bytes.2

/-- The STATUS payload, 54 bytes (R194, 10.8). -/
def State.statusPayload (s : State) : List Byte :=
  let q := s.seq
  let t := s.travel
  [byteOf q.state.code, (match q.lastEnd with | some c => byteOf c.code | none => 0#8),
    flagByte t.referenced] ++ beS4 t.position ++ beS4 t.speed ++ be2 s.power.pOut ++
  stepPlace (q.active.map Admitted.place) ++ stepPlace (q.next.map Admitted.place) ++
  [byteOf q.queue.length, byteOf q.source.code, byteOf q.flow.code,
    byteOf s.quench.trail.q1.entries.length, byteOf s.quench.trail.q2.entries.length,
    flagByte s.quench.circuit.q1.valve, flagByte s.quench.circuit.q2.valve,
    flagByte s.quench.circuit.q3.valve, flagByte s.quench.pump, flagByte s.quench.supplyReady] ++
  be2 q.trimT ++ be2 q.trimS ++
  (match q.shadow with
    | some sh => be2 sh.t ++ be2 sh.s ++ [byteOf sh.method.code, 1#8]
    | none => List.replicate 6 0#8) ++
  [flagByte s.power.inhibit, flagByte s.trip.latch, sourceByte s.firstCause,
    channelByte (s.trip.record.bind (·.channel))] ++
  sourceSet (s.presentIn .limit) ++ sourceSet (s.presentIn .warn) ++
  [byteOf s.zones.count] ++ be2 t.spindleCommand ++ be2 t.rpm

/-- The trip record of a part record, 24 bytes. -/
def TripRecord.bytes (r : TripRecord) : List Byte :=
  [byteOf r.cause.code, channelByte r.channel, byteOf r.state.code] ++ beS4 r.position ++
    beS4 r.speed ++ be2 r.pOut ++ stepPlace r.active ++ be4 (r.time.getD 0xFFFFFFFF) ++
    sourceSet r.later ++ [byteOf r.count]

/-- The marks of a zone summary as a number. -/
def ZoneSummary.marks (z : ZoneSummary) : Nat :=
  let m : Bool → Nat → Nat := fun b n => if b then n else 0
  m z.outLow 1 + m z.outHigh 2 + m z.saturated 4 + m z.limited 8 + m z.quenchShort 16 +
    m z.interrupted 32 + m z.warn 64 + m z.density.isSome 128 + m z.maxTemp.isSome 256 +
    m z.extent.isSome 512

/-- A zone summary, 35 bytes. -/
def ZoneSummary.bytes (z : ZoneSummary) : List Byte :=
  byteOf z.zone :: (be2 z.marks ++ be4 z.energy ++ be4 z.length ++ be4 (z.density.getD 0) ++
    be2 z.peak ++ beS2 (z.maxTemp.getD 0) ++ be4 z.satDist ++ be4 z.limDist ++
    beS4 ((z.extent.map (·.1)).getD 0) ++ beS4 ((z.extent.map (·.2)).getD 0))

/-- A part record: header of 25 bytes, zone summaries, trip record (R164, R166). -/
def PartRecord.bytes (r : PartRecord) : List Byte :=
  be2 r.number ++ be8 r.part ++
    [(match r.page with | some p => byteOf p | none => 0xFF#8), byteOf r.source.code,
      byteOf r.endCause.code, byteOf r.verdict.code, flagByte r.warn, byteOf r.zones.length,
      flagByte r.trip.isSome] ++ be4 r.scanTime ++ be4 r.total ++
    r.zones.flatMap ZoneSummary.bytes ++ (match r.trip with | some t => t.bytes | none => [])

/-! ### The receiver (R186) -/

/-- The length field of the bytes from a start byte on, once both of its bytes are held. -/
def lengthField : List Byte → Option Nat
  | _ :: a :: b :: _ => some (u16 a b)
  | _ => none

/-- A length that opens a body (R185, R186). -/
def goodLength (n : Nat) : Bool := decide (2 ≤ n) && decide (n ≤ 640)

/-- The search for a start byte over held bytes: other bytes are dropped, and a frame whose length is out of range is discarded with
the search restarting behind its start byte (R186). -/
def hunt : List Byte → List Byte
  | [] => []
  | b :: rest =>
    if b = startByte then
      match lengthField (b :: rest) with
      | some n => if goodLength n then b :: rest else hunt rest
      | none => b :: rest
    else hunt rest

/-- Start byte, length and check bytes of a frame with `n` body bytes. -/
def frameSize (n : Nat) : Nat := n + 5

/-- The held bytes begin with a whole frame. -/
def holdsFrame (bytes : List Byte) : Bool :=
  match lengthField bytes with
  | some n => decide (frameSize n ≤ bytes.length)
  | none => false

/-- The request of a whole frame whose check is good; none when it is not (R185, R186). -/
def checkedRequest (bytes : List Byte) : Option RawRequest :=
  match lengthField bytes with
  | some n =>
    let inner := (bytes.drop 1).take (n + 2)
    match (bytes.drop (n + 3)).take 2, inner.drop 2 with
    | [c0, c1], kind :: tag :: payload =>
      if (crc inner).toNat = u16 c0 c1 then some ⟨kind, tag, payload⟩ else none
    | _, _ => none
  | none => none

/-- The arrival of a good frame (R187): discarded with tag 0, else to the receive buffer, the BUSY list, or nowhere. -/
def Link.arrive (l : Link) (r : RawRequest) : Link :=
  if r.tag = 0#8 then l
  else if l.rxBuffer.length < linkCap then { l with rxBuffer := l.rxBuffer ++ [r] }
  else if l.busy.length < linkCap then
    Link.transmit { l with busy := l.busy ++ [⟨r.kind, r.tag⟩] }
  else l

/-- The check bytes of a whole frame compared: a good frame is handed on and leaves, a bad one loses its start byte and the search
restarts over the rest (R186). -/
def Link.frameReceived (l : Link) : Link :=
  if holdsFrame l.rxBytes then
    match checkedRequest l.rxBytes with
    | some r =>
      Link.arrive
        { l with rxBytes := hunt (l.rxBytes.drop (frameSize ((lengthField l.rxBytes).getD 0))) } r
    | none => { l with rxBytes := hunt (l.rxBytes.drop 1) }
  else l

/-- Whole frames among the held bytes are taken before the next byte; `fuel` bounds them by the bytes held (log 18). -/
def Link.settleGo : Nat → Link → Link
  | 0, l => l
  | n + 1, l => if holdsFrame l.rxBytes then Link.settleGo n l.frameReceived else l

/-- A byte received (R186). -/
def Link.byteReceived (l : Link) (b : Byte) : Link :=
  let l1 := Link.settleGo l.rxBytes.length l
  { l1 with rxBytes := hunt (l1.rxBytes ++ [b]) }

/-- More than 5 ms without a byte: a partial frame is discarded with its bytes (R186). -/
def Link.gap (l : Link) : Link := if holdsFrame l.rxBytes then l else { l with rxBytes := [] }

/-- The transmitter has sent its frame, is IDLE, and starts the next (R191). -/
def Link.frameSent (l : Link) : Link := Link.transmit { l with sending := none }

/-! ### Replies (R188, R189) -/

/-- A result code and what follows it in the reply. -/
abbrev Answer := ResultCode × List Byte

/-- The reply of a request of a kind and tag is placed (R188, R189). -/
def State.answer (s : State) (kind tag : Byte) (a : Answer) : State :=
  s.onLink (·.placeReply { kind := replyKind kind, tag := tag, result := a.1, payload := a.2 })

/-- Dispatch is free: fewer than 4 replies wait (R188). -/
def Link.hasReplyPlace (l : Link) : Bool := decide (l.replies < linkCap)

/-- What RESTART leaves at the link (R195). -/
def Link.restart (l : Link) : Link :=
  { l with rxBytes := [], rxBuffer := [], out := l.out.filter OutFrame.isReply }

end Sys2Proof.Machine
end

