-- ==== Sys2Proof/Machine/Measure.lean ====
section
/-! DEFINITION. The Measurement Sequencer (Chapter 6): requests and their absorption, the arbiter with ageing, bursts, samples
and their faults, offset calibration, and what each owner does with a published value. -/

namespace Sys2Proof.Machine

/-! ### Requests (R116) -/

/-- A request is the waiting one of this channel and kind. -/
def Waiting.isOf (w : Waiting) (c : Channel) (k : BurstKind) : Bool := w.channel == c && w.kind == k

/-- A request joins the waiting requests with pass count 0, or is absorbed by the one already waiting (R116). -/
def Meas.join (m : Meas) (c : Channel) (k : BurstKind) : Meas :=
  if m.waiting.any (·.isOf c k) then m
  else { m with waiting := m.waiting ++ [⟨c, k, 0, false⟩] }

/-! ### The arbiter (R117, R118, R126) -/

/-- The effective class: URGENT once promoted, else the channel's for a SAMPLE and BACKGROUND for a CALIBRATION (R117). -/
def Waiting.cls (w : Waiting) : ChannelClass :=
  if w.promoted then .urgent
  else
    match w.kind with
    | .sample => w.channel.cls
    | .calibration => .background

/-- The round-robin pointer of a class. -/
def Meas.pointer (m : Meas) : ChannelClass → Channel
  | .urgent => m.ptrUrgent
  | .normal => m.ptrNormal
  | .background => m.ptrBackground

def Meas.setPointer (m : Meas) (k : ChannelClass) (c : Channel) : Meas :=
  match k with
  | .urgent => { m with ptrUrgent := c }
  | .normal => { m with ptrNormal := c }
  | .background => { m with ptrBackground := c }

/-- `n` channels in number order from one on, wrapping from 8 to 0. -/
def channelsFrom : Nat → Channel → List Channel
  | 0, _ => []
  | n + 1, c => c :: channelsFrom n c.next

/-- The request of a channel that holds an effective class, the SAMPLE request before the CALIBRATION request (R117). -/
def Meas.candidate (m : Meas) (k : ChannelClass) (c : Channel) : Option Waiting :=
  (m.waiting.find? fun w => w.isOf c .sample && w.cls == k).or
    (m.waiting.find? fun w => w.isOf c .calibration && w.cls == k)

/-- The search of a class from its pointer (R117). -/
def Meas.search (m : Meas) (k : ChannelClass) : Option (Waiting × ChannelClass) :=
  ((channelsFrom 9 (m.pointer k)).findSome? (m.candidate k)).map fun w => (w, k)

/-- The chosen request: of the highest effective class held (R117). -/
def Meas.choose (m : Meas) : Option (Waiting × ChannelClass) :=
  ((m.search .urgent).or (m.search .normal)).or (m.search .background)

/-- The waiting requests without one. -/
def Meas.without (m : Meas) (w : Waiting) : List Waiting :=
  m.waiting.filter fun x => !x.isOf w.channel w.kind

/-- A request whose pass count has reached the relax limit becomes URGENT and keeps that class (R118). -/
def Waiting.relax (w : Waiting) (limit : Nat) : Waiting :=
  { w with promoted := w.promoted || decide (limit ≤ w.passes) }

/-- A grant passes a request by: its pass count rises by one (R118). -/
def Waiting.passed (w : Waiting) (limit : Nat) : Waiting :=
  { w with passes := w.passes + 1 }.relax limit

/-- Conversions of a burst: the channel's N, or 16 for a calibration (R114). -/
def burstLength (c : MeasureCfg) (w : Waiting) : Nat :=
  match w.kind with
  | .sample => (c.chan.get w.channel).burst
  | .calibration => 16

/-- A request is granted: its burst starts, the others are passed by, the pointer of the class moves on (R114, R117, R118). -/
def Meas.granted (m : Meas) (c : MeasureCfg) (w : Waiting) (k : ChannelClass) : Meas :=
  { m.setPointer k w.channel.next with
    converter := some
      { channel := w.channel, kind := w.kind, length := burstLength c w, left := burstLength c w,
        sum := 0, rail := false }
    waiting := (m.without w).map (·.passed c.relax) }

/-- A channel joins the owed set, kept in channel order (R125). -/
def insertChannel (c : Channel) : List Channel → List Channel
  | [] => [c]
  | x :: rest =>
    if c = x then x :: rest
    else if c.num < x.num then c :: x :: rest
    else x :: insertChannel c rest

/-- A CALIBRATION request of an URGENT-class channel is withdrawn; in ROTATE its channel is owed (R126). -/
def Meas.withdraw (m : Meas) (c : MeasureCfg) (w : Waiting) : Meas :=
  { m with
    waiting := m.without w
    owed := if c.calMode = .rotate then insertChannel w.channel m.owed else m.owed }

/-- The search is repeated after each withdrawal; `fuel` bounds the withdrawals by the waiting requests. -/
def Meas.grantGo (c : MeasureCfg) (powerOn : Bool) : Nat → Meas → Meas
  | 0, m => m
  | n + 1, m =>
    match m.choose with
    | none => m
    | some (w, k) =>
      if w.kind == .calibration && w.channel.cls == .urgent && powerOn then
        Meas.grantGo c powerOn n (m.withdraw c w)
      else m.granted c w k

/-- A grant, made whenever the converter is FREE and a request waits; pass counts are first compared with the relax limit in force
(R117, R118, R128). -/
def Meas.grant (m : Meas) (c : MeasureCfg) (powerOn : Bool) : Meas :=
  match m.converter with
  | some _ => m
  | none =>
    Meas.grantGo c powerOn (m.waiting.length + 1)
      { m with waiting := m.waiting.map (·.relax c.relax) }

def State.grant (s : State) : State := s.onMeas (·.grant s.cfg.measure (decide (s.power.pOut ≠ 0)))

/-- A channel's request timer expires and starts its next period; the request is granted at once when the converter is FREE
(R116). -/
def State.sampleRequest (s : State) (c : Channel) : State :=
  (s.onMeas fun m =>
    { m.join c .sample with
      chan := m.chan.set c { m.chan.get c with timer := (s.cfg.measure.chan.get c).period } }).grant

/-! ### The calibration timer (R125, R126) -/

/-- Eligible for calibration: not of the URGENT class, or P_out is 0 (R125). -/
def eligible (powerOn : Bool) (c : Channel) : Bool := c.cls != .urgent || !powerOn

/-- The walk from the calibration pointer: ineligible channels become owed, the first eligible one is queued (R125). -/
def Meas.calWalk (powerOn : Bool) : Nat → Meas → Meas
  | 0, m => m
  | n + 1, m =>
    if eligible powerOn m.calPointer then
      { m.join m.calPointer .calibration with calPointer := m.calPointer.next }
    else
      Meas.calWalk powerOn n
        { m with owed := insertChannel m.calPointer m.owed, calPointer := m.calPointer.next }

/-- An expiry of the calibration timer by mode (R125, R126). -/
def Meas.calExpiry (m : Meas) (c : MeasureCfg) (powerOn : Bool) : Meas :=
  match c.calMode with
  | .rotate =>
    match m.owed.find? (eligible powerOn) with
    | some ch => { m.join ch .calibration with owed := m.owed.filter (· != ch) }
    | none => m.calWalk powerOn 9
  | .all => if powerOn then m else Channel.all.foldl (fun a ch => a.join ch .calibration) m

/-- The calibration timer's expiry (R125, R126). In ALL all nine requests are queued before the one grant that a FREE converter makes,
so that the grant passes the other eight by (the model's choice, log 31). -/
def State.calibrationExpiry (s : State) : State :=
  (s.onMeas fun m =>
    { m.calExpiry s.cfg.measure (decide (s.power.pOut ≠ 0)) with
      calTimer := s.cfg.measure.calPeriod }).grant

/-! ### Samples (R119, R120, R123) -/

/-- The value of a good sample (R120). -/
def sampleValue (sum n : Nat) (offset : Int) (scale : Nat) : Int :=
  roundDiv ((roundDiv sum n - offset - 2048) * scale) 1000

/-- A good sample's effect on the channel record (R120, R122). -/
def ChannelRec.good (r : ChannelRec) (value : Int) : ChannelRec :=
  { r with
    published := some value, lastGood := some value, age := some 0, held := 0,
    sensorFault := false }

/-- A faulted sample's effect on the channel record, by fault mode; with no value to give, the published value stays what it was
(R121, R123). -/
def ChannelRec.faulted (r : ChannelRec) (c : ChannelCfg) (stale : Nat) : ChannelRec :=
  match c.mode with
  | .hold =>
    let held := min (r.held + 1) 255
    { r with
      published := r.lastGood.or r.published, held := held,
      sensorFault := r.sensorFault || decide (stale < held) }
  | .substitute => { r with published := some c.substitute, held := 0, sensorFault := false }
  | .fault => { r with published := r.lastGood.or r.published, sensorFault := true }

/-- What a faulted sample publishes (R121, R123). -/
def ChannelRec.faultedValue (r : ChannelRec) (c : ChannelCfg) : Option Int :=
  match c.mode with
  | .substitute => some c.substitute
  | .hold | .fault => r.lastGood

/-! ### The owners (R115) -/

/-- The Power Unit's test of COIL_I (R86). -/
def State.takeCoilCurrent (s : State) (v : Int) : State :=
  let now := coilOverAfter s.cfg.trip s.power.coilOver v
  (s.onPower ({ · with coilOver := now })).raiseIf s.power.coilOver now .coilOvercurrent

/-- The Power Unit's test of PYRO (R87). -/
def State.takePyro (s : State) (v : Int) : State :=
  let now := pyroHighAfter s.cfg.trip s.power.pyroHigh v
  (s.onPower ({ · with pyroHigh := now })).raiseIf s.power.pyroHigh now .pyroHigh

/-- A flow value at its circuit's watch (R104, R105). -/
def State.takeFlow (s : State) (k : Circuit) (v : Int) : State :=
  s.onQuench fun q =>
    { q with
      circuit := q.circuit.set k
        ((q.circuit.get k).flow s.cfg.quench (s.cfg.quench.flowMin.get k) v) }

/-- Q_PRESS at Supply Ready; a change is passed to the Sequencer at once (R108, R25). -/
def State.takePressure (s : State) (v : Int) : State :=
  let now := supplyAfter s.cfg.quench s.quench.supplyReady v
  if now = s.quench.supplyReady then s
  else (s.onQuench ({ · with supplyReady := now })).vacantCheck

/-- QUENCH_TEMP_HIGH after a published Q_TEMP value (R133). -/
def quenchTempAfter (c : TripCfg) (was : Bool) (v : Int) : Bool :=
  if (c.qTempLimit : Int) < v then true
  else if v ≤ (c.qTempLimit : Int) - 2 then false
  else was

/-- The Trip Unit's test of Q_TEMP (R133). -/
def State.takeQuenchTemp (s : State) (v : Int) : State :=
  let now := quenchTempAfter s.cfg.trip s.trip.quenchTempHigh v
  (s.onTrip ({ · with quenchTempHigh := now })).raiseIf s.trip.quenchTempHigh now .quenchTempHigh

/-- The Trip Unit's test of COIL_WATER (R132); no value lies below a minimum of 0 (R150), and the next value
after its write stops a running timer (log 35). -/
def State.takeCoilWater (s : State) (v : Int) : State :=
  s.onTrip fun t =>
    if s.cfg.trip.waterMin ≠ 0 ∧ v < (s.cfg.trip.waterMin : Int) then
      { t with coilWaterTimer := t.coilWaterTimer || !t.coilWaterLow }
    else { t with coilWaterTimer := false, coilWaterLow := false }

/-- Publication: the value is handed to the channel's owner (R115, R121). -/
def State.publish (s : State) (c : Channel) (v : Int) : State :=
  match c with
  | .coilI => s.takeCoilCurrent v
  | .invP => s
  | .pyro => s.takePyro v
  | .flow1 => s.takeFlow .q1 v
  | .flow2 => s.takeFlow .q2 v
  | .flow3 => s.takeFlow .q3 v
  | .qPress => s.takePressure v
  | .qTemp => s.takeQuenchTemp v
  | .coilWater => s.takeCoilWater v

/-! ### Ends of bursts (R119 to R124, R127) -/

def State.onChannel (s : State) (c : Channel) (f : ChannelRec → ChannelRec) : State :=
  s.onMeas fun m => { m with chan := m.chan.set c (f (m.chan.get c)) }

/-- A good sample is published (R120). -/
def State.goodSample (s : State) (b : Burst) : State :=
  let r := s.meas.chan.get b.channel
  let v := sampleValue b.sum b.length r.offset (s.cfg.measure.chan.get b.channel).scale
  (s.onChannel b.channel (·.good v)).publish b.channel v

/-- A faulted sample: record, publication where there is a value, and the raise when the channel's condition becomes present
(R123, R124). -/
def State.faultedSample (s : State) (b : Burst) : State :=
  let cfg := s.cfg.measure.chan.get b.channel
  let before := s.meas.chan.get b.channel
  let after := before.faulted cfg s.cfg.measure.stale
  let s1 := s.onChannel b.channel fun _ => after
  let s2 := match before.faultedValue cfg with
    | some v => s1.publish b.channel v
    | none => s1
  s2.raiseIf before.sensorFault after.sensorFault .sensorFault (some b.channel)

/-- The measured offset (R127). -/
def measuredOffset (sum : Nat) : Int := roundDiv sum 16 - 2048

/-- A calibration result (R127). -/
def ChannelRec.calibrate (r : ChannelRec) (b : Burst) : ChannelRec :=
  if !b.rail && decide ((measuredOffset b.sum).natAbs ≤ 512) then
    { r with offset := measuredOffset b.sum, calibrated := true }
  else { r with calibrated := false }

/-- The result of a completed burst (R119, R127). -/
def State.burstResult (s : State) (b : Burst) : State :=
  match b.kind with
  | .sample =>
    if !b.rail && (s.meas.chan.get b.channel).calibrated then s.goodSample b else s.faultedSample b
  | .calibration => s.onChannel b.channel (·.calibrate b)

/-- The burst after one more conversion (R114). -/
def Burst.convert (b : Burst) (code : Nat) : Burst :=
  { b with
    sum := b.sum + code, left := b.left - 1, rail := b.rail || code == 0 || code == 65535 }

/-- A conversion completes; the last one completes the burst, and a grant follows once its result is handled (R114, R117). -/
def State.conversionComplete (s : State) (code : Nat) : State :=
  match s.meas.converter with
  | none => s
  | some b =>
    let b' := b.convert code
    if b'.left = 0 then
      ((s.onMeas ({ · with converter := none })).burstResult b').grant
    else s.onMeas ({ · with converter := some b' })

end Sys2Proof.Machine
end

