-- ==== Sys2Proof/Machine/Requests.lean ====
section
/-! DEFINITION. The requests of the Cell Link (10.8): for each one its answer, read from the state before it, and its serving,
which places the reply and then does what the owner's rule says, so that the notices it causes stand behind the reply (R188).
RESET and RESTART stand here too. -/

namespace Sys2Proof.Machine

/-! ### STATUS and CONFIGURE (R193, R194) -/

def State.serveStatus (s : State) (tag : Byte) : State := s.answer 0x01#8 tag (.ok, s.statusPayload)

/-- The answer to CONFIGURE on items already read: BAD_LENGTH when the number of items is not the group's, STATE outside IDLE and
UNREFERENCED, INVALID when an item or a rule between items fails (R190, R193). -/
def State.configAnswer {α : Type} (s : State) (want : Nat) (items : List Int) (read : Option α) :
    ResultCode :=
  if items.length ≠ want then .badLength
  else if !s.seq.state.isRest then .state
  else if read.isNone then .invalid
  else .ok

/-- CONFIGURE of a group: the reply, and the group replaced as a whole when accepted (R193). -/
def State.serveConfig {α : Type} (s : State) (tag : Byte) (want : Nat) (items : List Int)
    (read : Option α) (write : α → State → State) : State :=
  let a := s.configAnswer want items read
  let s1 := s.answer 0x02#8 tag (a, [])
  match read with
  | some c => if a = .ok then write c s1 else s1
  | none => s1

def State.serveMachine (s : State) (tag : Byte) (items : List Int) : State :=
  s.serveConfig tag 13 items (machineOf items) fun c t => t.onCfg ({ · with machine := c })

def State.serveQuenchGroup (s : State) (tag : Byte) (items : List Int) : State :=
  s.serveConfig tag 13 items (quenchCfgOf items) fun c t => t.onCfg ({ · with quench := c })

/-- Every request timer and the calibration timer start afresh with the group's periods (R128). -/
def Meas.restartTimers (m : Meas) (c : MeasureCfg) : Meas :=
  { m with
    chan := .ofFn fun ch => { m.chan.get ch with timer := (c.chan.get ch).period }
    calTimer := c.calPeriod }

def State.serveMeasure (s : State) (tag : Byte) (items : List Int) : State :=
  s.serveConfig tag 49 items (measureOf items) fun c t =>
    (t.onCfg ({ · with measure := c })).onMeas (·.restartTimers c)

/-- An accepted TRIP group: present sources newly in the TRIP class are taken as just raised (R151). -/
def State.reclass (s : State) (c : TripCfg) : State :=
  let old := s.cfg.trip
  (s.onCfg ({ · with trip := c })).raisePresent fun src =>
    c.classOf src == .trip && old.classOf src != .trip

def State.serveTripGroup (s : State) (tag : Byte) (items : List Int) : State :=
  s.serveConfig tag 25 items (tripCfgOf items) fun c t => t.reclass c

def State.serveFlowGroup (s : State) (tag : Byte) (items : List Int) : State :=
  s.serveConfig tag 2 items (flowCfgOf items) fun c t => t.onCfg ({ · with flow := c })

def State.servePrestartGroup (s : State) (tag : Byte) (items : List Int) : State :=
  s.serveConfig tag 1 items (prestartOf items) fun c t => t.onCfg ({ · with prestart := c })

/-! ### RESET and RESTART (R47, R67, R91, R113, R129, R152, R169, R183, R195, R196) -/

/-- R47, the RESTART column. -/
def Seq.restart (q : Seq) (state : SeqState) : Seq :=
  { Seq.reset with state := state, lastEnd := q.lastEnd }

/-- R67, the RESTART column; the measured rpm is kept until the next sample (R65, log 12). An active encoder fault input is present at
once and clears the reference (R67, R152, log 9). -/
def Travel.restart (t : Travel) (encoder : Bool) : Travel :=
  { Travel.reset with
    position := t.position, history := List.replicate 16 t.position,
    referenced := t.referenced && !encoder, plan := t.position * 1000, rpm := t.rpm,
    encoderFault := encoder }

/-- All blocks after an accepted RESTART, before the STATE notice (R195). -/
def State.restarted (s : State) : State :=
  let travel := s.travel.restart s.inputs.encoder
  { s with
    seq := s.seq.restart (if travel.referenced then .idle else .unreferenced), travel := travel,
    power := .reset,
    quench := .reset, meas := .reset s.cfg.measure, trip := .reset,
    store := { s.store with inUse := none }, link := s.link.restart }

/-- Each present source in the TRIP class is taken as raised after RESET or RESTART (R152). -/
def State.raiseTrips (s : State) : State := s.raisePresent fun src => s.classOf src == .trip

/-- RESTART is accepted in IDLE, UNREFERENCED and TRIPPED (R47, R195). -/
def State.restartAnswer (s : State) : ResultCode :=
  if s.seq.state.isRest ∨ s.seq.state = .tripped then .ok else .state

def State.serveRestart (s : State) (tag : Byte) : State :=
  let s1 := s.answer 0x03#8 tag (s.restartAnswer, [])
  if s.restartAnswer = .ok then
    (s1.restarted.notify (.state s1.restarted.seq.state .restart none)).raiseTrips
  else s1

/-- RESET: every block at its reset values, the levels of the input lines as they are, and the sources present at RESET taken
(R196, R152). -/
def State.resetPart (s : State) : State := (State.afterReset s.inputs s.pending).raiseTrips

/-! ### HOME, MOVE-TO, STOP (R21, R22, R27) -/

def State.homeAnswer (s : State) : ResultCode := if s.seq.state.isRest then .ok else .state

/-- The homing run begins: reference cleared, SEEK, HOMING (R21, R62). -/
def State.beginHoming (s : State) : State :=
  (((s.onTravel (·.orderSeek s.cfg.machine.homingSpeed)).onTravel ({ · with referenced := false })).onSeq
    ({ · with stopTaken := false })).enter .homing .home

def State.serveHome (s : State) (tag : Byte) : State :=
  let s1 := s.answer 0x04#8 tag (s.homeAnswer, [])
  if s.homeAnswer = .ok then s1.beginHoming else s1

def State.moveToAnswer (s : State) (target : Int) (speed : Nat) : ResultCode :=
  if s.seq.state = .unreferenced then .notHomed
  else if s.seq.state ≠ .idle then .state
  else if !inRange 100 30000 speed || !inRange s.cfg.machine.softLow s.cfg.machine.softHigh target then
    .invalid
  else .ok

def State.serveMoveTo (s : State) (tag : Byte) (target : Int) (speed : Nat) : State :=
  let s1 := s.answer 0x05#8 tag (s.moveToAnswer target speed, [])
  if s.moveToAnswer target speed = .ok then
    ((s1.onTravel (·.orderTarget target speed)).onSeq ({ · with stopTaken := false })).enter
      .positioning .moveTo
  else s1

def State.stopAnswer (s : State) : ResultCode :=
  match s.seq.state with
  | .prestart | .running | .homing | .positioning => .ok
  | .unreferenced | .idle | .runout | .tripping | .tripped => .state

/-- A STOP in HOMING or POSITIONING: STOPPING, and the switch-found mark cleared (R27, R62, R63). -/
def State.stopMotion (s : State) : State :=
  (s.onTravel fun t => { t.orderStopping with switchFound := false }).onSeq
    ({ · with stopTaken := true })

/-- What STOP does in each state (R27). -/
def State.stopEffect (s : State) : State :=
  match s.seq.state with
  | .prestart => s.exitPrestart .stopped
  | .running => s.runoutEntry .stopped none
  | .homing | .positioning => s.stopMotion
  | .unreferenced | .idle | .runout | .tripping | .tripped => s

def State.serveStop (s : State) (tag : Byte) : State :=
  (s.answer 0x06#8 tag (s.stopAnswer, [])).stopEffect

/-! ### START (R23, R24) -/

/-- The four checks of a START; the third is the request's own (R23). -/
def State.startAnswer (s : State) (third : Option ResultCode) : ResultCode :=
  if s.seq.state = .unreferenced then .notHomed
  else if s.seq.state ≠ .idle then .state
  else
    match third with
    | some c => c
    | none => if s.zones.count ≥ recordCap then .recordsFull else .ok

/-- The reply of a START: on OK the record number (10.8). -/
def State.startReply (s : State) (third : Option ResultCode) : Answer :=
  let a := s.startAnswer third
  (a, if a = .ok then be2 s.zones.numberToTake else [])

/-- What an accepted START takes up: a profile page or the link. -/
structure StartPlan where
  part : Tag8
  page : Option Nat
  windows : List Window
  spindle : Nat
  deriving DecidableEq, Repr

/-- The Sequencer's fields at the acceptance of a START (R24, R41). -/
def Seq.started (q : Seq) (p : StartPlan) (position : Int) (prestart : Nat) : Seq :=
  let q1 : Seq := match q.shadow with
    | some sh => if sh.method = .immediate then q else q.transfer
    | none => q
  { q1 with
    turnPhase := .none, queue := [], next := none, active := none,
    source := if p.page.isSome then .profile else .link
    segKind := if p.page.isSome then none else some .stream
    segClosed := false, programEnd := false,
    loader := p.page.map fun pg => ⟨pg, 0, .running⟩
    passDir := none, scanStart := position, nominal := position, zoneCount := p.windows.length,
    lastZone := none, linkCount := 0, flow := .flowing, stepTimer := none,
    prestartTimer := some prestart, scanClock := some 0, spinTaken := false, heatSpeed := none }

/-- The acceptance of a START (R24): Sequencer, generator in HOLD, record, pump, accumulator and enable, spindle, profile in use,
STATE notice, and GO for a stream. -/
def State.acceptStart (s : State) (p : StartPlan) : State :=
  let s1 := s.onSeq (·.started p s.travel.position s.cfg.prestart)
  let s2 := (s1.onTravel Travel.orderHold).onZones
    (·.openRecord p.part p.page (if p.page.isSome then .profile else .link) p.windows)
  let s3 := (s2.onQuench Quench.pumpOn).onPower fun w => { w.enableOn s.inputs.ready with acc := 0 }
  let s4 := ((s3.setSpindle p.spindle).onStore ({ · with inUse := p.page })).enter .prestart .start
  if p.page.isSome then s4 else s4.notify (.flow true)

/-- The third check of START-PROFILE (R23). -/
def State.profileCheck (s : State) (page : Nat) : Option ResultCode :=
  if s.store.isWrittenFirst page then none else some .notFound

def State.serveStartProfile (s : State) (tag : Byte) (page : Nat) (part : Tag8) : State :=
  let a := s.startReply (s.profileCheck page)
  let s1 := s.answer 0x07#8 tag a
  if a.1 = .ok then
    s1.acceptStart
      { part := part, page := some page, windows := s.store.windowsOf page,
        spindle := s.store.firstSpin page }
  else s1

/-- The third check of START-STREAM (R23). -/
def streamCheck (ws : List WindowRecord) : Option ResultCode :=
  if (windowsOf ws).isSome then none else some .invalid

def State.serveStartStream (s : State) (tag : Byte) (part : Tag8) (ws : List WindowRecord) : State :=
  let a := s.startReply (streamCheck ws)
  let s1 := s.answer 0x08#8 tag a
  if a.1 = .ok then
    s1.acceptStart { part := part, page := none, windows := (windowsOf ws).getD [], spindle := 0 }
  else s1

/-! ### STEP (R16, R37) -/

/-- A step of a legal kind is in its place in the current link segment (R16). -/
def Seq.inPlace (q : Seq) (step : ScanStep) : Bool :=
  !q.segClosed &&
    (match step, q.segKind with
      | .splice _, _ => false
      | .resume, k => k == some .splice
      | .finish, k => k == some .stream
      | _, _ => true)

/-- The step of a STEP record that passes R15 and R16. -/
def Seq.linkStep (q : Seq) (r : StepRecord) : Option ScanStep :=
  (ScanStep.ofRecord r).filter q.inPlace

/-- The checks of STEP in order; on OK the link index (R37, 10.8). -/
def State.stepAnswer (s : State) (r : StepRecord) : Answer :=
  if s.seq.source ≠ .link then (.source, [])
  else if s.seq.queue.length ≥ queueCap then (.queueFull, [])
  else if (s.seq.linkStep r).isNone then (.invalid, [])
  else (.ok, be2 s.seq.linkCount)

/-- The spindle choice of a stream's PRESTART (R24, R64). -/
def State.chooseSpin (s : State) (step : ScanStep) : State :=
  if s.seq.state = .prestart ∧ s.seq.segKind = some .stream ∧ s.seq.spinTaken = false then
    match step.spin? with
    | some r => (s.setSpindle r).onSeq ({ · with spinTaken := true })
    | none => s
  else s

/-- An accepted STEP: the tail of the queue with the next link index, the segment, the flow state, the spindle choice; a source step
at the head acts, and an empty RUNNING is looked at (R16, R17, R24, R25, R29, R37, R39). -/
def State.acceptStep (s : State) (step : ScanStep) : State :=
  let s1 := s.onSeq fun q =>
    { q with
      queue := q.queue ++ [⟨step, .link, q.linkCount⟩], linkCount := (q.linkCount + 1) % 65536,
      segClosed := q.segClosed || step.closes }
  ((s1.flowStep step).chooseSpin step).sourceHead.vacantCheck

def State.serveStep (s : State) (tag : Byte) (r : StepRecord) : State :=
  let a := s.stepAnswer r
  let s1 := s.answer 0x09#8 tag a
  match s.seq.linkStep r with
  | some step => if a.1 = .ok then s1.acceptStep step else s1
  | none => s1

/-! ### TRIM and INHIBIT (R40 to R42, R70) -/

/-- Method codes (R198). -/
def methodOf (m : Nat) : Option TrimMethod :=
  if m = 1 then some .immediate else if m = 2 then some .step else if m = 3 then some .zone else none

/-- T held to 500..1,500 and S to 500..1,200 (R40). -/
def clampT (t : Nat) : Nat := clampNat 500 1500 t
def clampS (t : Nat) : Nat := clampNat 500 1200 t

/-- INVALID, else CLAMPED before REPLACED before OK (R40). -/
def State.trimAnswer (s : State) (t sp m : Nat) : ResultCode :=
  if (methodOf m).isNone then .invalid
  else if clampT t ≠ t ∨ clampS sp ≠ sp then .clamped
  else if s.seq.shadow.isSome then .replaced
  else .ok

/-- The shadow written; IMMEDIATE transfers at once (R40, R41). -/
def State.trimEffect (s : State) (t sp : Nat) (m : TrimMethod) : State :=
  let s1 := s.onSeq ({ · with shadow := some ⟨clampT t, clampS sp, m⟩ })
  if m = .immediate then (s1.onSeq Seq.transfer).retrim else s1

def State.serveTrim (s : State) (tag : Byte) (t sp m : Nat) : State :=
  let s1 := s.answer 0x0A#8 tag (s.trimAnswer t sp m, [])
  match methodOf m with
  | some k => s1.trimEffect t sp k
  | none => s1

/-- INHIBIT on: the zero order, unless inhibit is already on (R70). -/
def State.serveInhibitOn (s : State) (tag : Byte) : State :=
  (s.answer 0x0B#8 tag (.ok, [])).onPower fun p =>
    if p.inhibit then p else { p.zero with inhibit := true }

/-- INHIBIT off (R70). -/
def State.serveInhibitOff (s : State) (tag : Byte) : State :=
  (s.answer 0x0B#8 tag (.ok, [])).onPower ({ · with inhibit := false })

/-! ### FORCE-TRIP and CLEAR-TRIP (R148, R149) -/

def State.serveForceTrip (s : State) (tag : Byte) : State :=
  (s.answer 0x0C#8 tag (.ok, [])).raise .forced

def State.clearAnswer (s : State) : ResultCode :=
  if s.seq.state ≠ .tripped then .state
  else if !(s.presentIn .trip).isEmpty then .stillPresent
  else .ok

/-- Latch, record and response cleared (R149). -/
def TripUnit.cleared (t : TripUnit) : TripUnit :=
  { t with
    latch := false, response := none, responseDone := false, trailsSeen := false,
    stoppedSeen := false, floodSeen := false, record := none }

def State.serveClearTrip (s : State) (tag : Byte) : State :=
  let s1 := s.answer 0x0D#8 tag (s.clearAnswer, [])
  if s.clearAnswer = .ok then (s1.onTrip TripUnit.cleared).enter s.restState .cleared else s1

/-! ### The Profile Store (R172 to R180) -/

def State.serveOpen (s : State) (tag : Byte) (page size zones steps : Nat) (name : Tag8) : State :=
  let a := s.store.openResult page size zones steps
  let s1 := s.answer 0x10#8 tag (a, [])
  if a = .ok then s1.onStore (·.openProfile page size zones steps name) else s1

def State.serveData (s : State) (tag : Byte) (page : Nat) (records : List DataRecord) : State :=
  let a := s.store.dataResult page records
  let s1 := s.answer 0x11#8 tag a
  if a.1 = .ok then s1.onStore (·.writeRecords page records) else s1

def State.serveClose (s : State) (tag : Byte) (page : Nat) : State :=
  let a := s.store.closeResult page
  let s1 := s.answer 0x12#8 tag a
  if a.1 = .state then s1 else s1.onStore (·.closeProfile page)

def State.serveErase (s : State) (tag : Byte) (page : Nat) : State :=
  let a := s.store.eraseResult page
  let s1 := s.answer 0x13#8 tag (a, [])
  if a = .ok then s1.onStore (·.eraseProfile page) else s1

def State.serveList (s : State) (tag : Byte) : State := s.answer 0x14#8 tag (.ok, s.store.listPayload)

/-! ### The record list (R166, R167) -/

/-- The answer to RECORD-GET (R166). -/
def Zones.getAnswer (z : Zones) (n : Nat) : Answer :=
  match z.find n with
  | some r => (.ok, r.bytes)
  | none => if n ≠ 0 ∧ z.isOpenNumber n = true then (.state, []) else (.notFound, [])

def State.serveGet (s : State) (tag : Byte) (n : Nat) : State := s.answer 0x18#8 tag (s.zones.getAnswer n)

/-- The answer to RECORD-RELEASE (R167). -/
def Zones.releaseAnswer (z : Zones) (n : Nat) : ResultCode :=
  if z.isOpenNumber n then .state
  else if z.closed.any (·.number == n) then .ok
  else .notFound

def State.serveRelease (s : State) (tag : Byte) (n : Nat) : State :=
  let a := s.zones.releaseAnswer n
  let s1 := s.answer 0x19#8 tag (a, [])
  if a = .ok then s1.onZones (·.release n) else s1

/-! ### Serving a request that has been taken -/

/-- The block that owns the request takes it as one event (R188). -/
def State.serve (s : State) (tag : Byte) : Request → State
  | .status => s.serveStatus tag
  | .configureMachine xs => s.serveMachine tag xs
  | .configureQuench xs => s.serveQuenchGroup tag xs
  | .configureMeasure xs => s.serveMeasure tag xs
  | .configureTrip xs => s.serveTripGroup tag xs
  | .configureFlow xs => s.serveFlowGroup tag xs
  | .configurePrestart xs => s.servePrestartGroup tag xs
  | .restart => s.serveRestart tag
  | .home => s.serveHome tag
  | .moveTo p v => s.serveMoveTo tag p v
  | .stop => s.serveStop tag
  | .startProfile p g => s.serveStartProfile tag p g
  | .startStream g ws => s.serveStartStream tag g ws
  | .step r => s.serveStep tag r
  | .trim t sp m => s.serveTrim tag t sp m
  | .inhibitOn => s.serveInhibitOn tag
  | .inhibitOff => s.serveInhibitOff tag
  | .forceTrip => s.serveForceTrip tag
  | .clearTrip => s.serveClearTrip tag
  | .profileOpen p z n k g => s.serveOpen tag p z n k g
  | .profileData p rs => s.serveData tag p rs
  | .profileClose p => s.serveClose tag p
  | .profileErase p => s.serveErase tag p
  | .profileList => s.serveList tag
  | .recordGet n => s.serveGet tag n
  | .recordRelease n => s.serveRelease tag n

/-- Dispatch of the oldest request in the receive buffer (R188); with an empty buffer or 4 replies waiting it waits. -/
def State.dispatch (s : State) : State :=
  match s.link.rxBuffer with
  | [] => s
  | r :: rest =>
    if s.link.hasReplyPlace then
      let s1 := s.onLink ({ · with rxBuffer := rest })
      match readRequest r.kind r.payload with
      | none => s1.answer r.kind r.tag (.badKind, [])
      | some none => s1.answer r.kind r.tag (.badLength, [])
      | some (some q) => s1.serve r.tag q
    else s

/-- The link takes a request at once: nothing waits before it and a reply place is free (R188). -/
def State.takesAtOnce (s : State) : Bool := s.link.rxBuffer.isEmpty && s.link.hasReplyPlace

/-- A request command: a good frame has arrived. Tag 0 is discarded; it is served at once when the link is free, and waits as R187 says
otherwise (log 6). -/
def State.request (s : State) (tag : Byte) (r : Request) (serve : State → State) : State :=
  if tag = 0#8 then s
  else if s.takesAtOnce then serve s
  else s.onLink (·.arrive (r.raw tag))

/-! ### The meanings -/

def execStatus (tag : Byte) (s : State) : Host.Outcome State Fault Refusal :=
  .next (s.request tag .status (·.serveStatus tag))

def execConfigureMachine (tag : Byte) (xs : List Int) (s : State) : Host.Outcome State Fault Refusal :=
  .next (s.request tag (.configureMachine xs) (·.serveMachine tag xs))

def execConfigureQuench (tag : Byte) (xs : List Int) (s : State) : Host.Outcome State Fault Refusal :=
  .next (s.request tag (.configureQuench xs) (·.serveQuenchGroup tag xs))

def execConfigureMeasure (tag : Byte) (xs : List Int) (s : State) : Host.Outcome State Fault Refusal :=
  .next (s.request tag (.configureMeasure xs) (·.serveMeasure tag xs))

def execConfigureTrip (tag : Byte) (xs : List Int) (s : State) : Host.Outcome State Fault Refusal :=
  .next (s.request tag (.configureTrip xs) (·.serveTripGroup tag xs))

def execConfigureFlow (tag : Byte) (xs : List Int) (s : State) : Host.Outcome State Fault Refusal :=
  .next (s.request tag (.configureFlow xs) (·.serveFlowGroup tag xs))

def execConfigurePrestart (tag : Byte) (xs : List Int) (s : State) :
    Host.Outcome State Fault Refusal :=
  .next (s.request tag (.configurePrestart xs) (·.servePrestartGroup tag xs))

def execRestart (tag : Byte) (s : State) : Host.Outcome State Fault Refusal :=
  .next (s.request tag .restart (·.serveRestart tag))

def execHome (tag : Byte) (s : State) : Host.Outcome State Fault Refusal :=
  .next (s.request tag .home (·.serveHome tag))

def execMoveTo (tag : Byte) (target : Int) (speed : Nat) (s : State) :
    Host.Outcome State Fault Refusal :=
  .next (s.request tag (.moveTo target speed) (·.serveMoveTo tag target speed))

def execStop (tag : Byte) (s : State) : Host.Outcome State Fault Refusal :=
  .next (s.request tag .stop (·.serveStop tag))

def execStartProfile (tag : Byte) (page : Nat) (part : Tag8) (s : State) :
    Host.Outcome State Fault Refusal :=
  .next (s.request tag (.startProfile page part) (·.serveStartProfile tag page part))

def execStartStream (tag : Byte) (part : Tag8) (ws : List WindowRecord) (s : State) :
    Host.Outcome State Fault Refusal :=
  .next (s.request tag (.startStream part ws) (·.serveStartStream tag part ws))

def execStep (tag : Byte) (r : StepRecord) (s : State) : Host.Outcome State Fault Refusal :=
  .next (s.request tag (.step r) (·.serveStep tag r))

def execTrim (tag : Byte) (t sp m : Nat) (s : State) : Host.Outcome State Fault Refusal :=
  .next (s.request tag (.trim t sp m) (·.serveTrim tag t sp m))

def execInhibitOn (tag : Byte) (s : State) : Host.Outcome State Fault Refusal :=
  .next (s.request tag .inhibitOn (·.serveInhibitOn tag))

def execInhibitOff (tag : Byte) (s : State) : Host.Outcome State Fault Refusal :=
  .next (s.request tag .inhibitOff (·.serveInhibitOff tag))

def execForceTrip (tag : Byte) (s : State) : Host.Outcome State Fault Refusal :=
  .next (s.request tag .forceTrip (·.serveForceTrip tag))

def execClearTrip (tag : Byte) (s : State) : Host.Outcome State Fault Refusal :=
  .next (s.request tag .clearTrip (·.serveClearTrip tag))

def execProfileOpen (tag : Byte) (page size zones steps : Nat) (name : Tag8) (s : State) :
    Host.Outcome State Fault Refusal :=
  .next (s.request tag (.profileOpen page size zones steps name)
    (·.serveOpen tag page size zones steps name))

def execProfileData (tag : Byte) (page : Nat) (records : List DataRecord) (s : State) :
    Host.Outcome State Fault Refusal :=
  .next (s.request tag (.profileData page records) (·.serveData tag page records))

def execProfileClose (tag : Byte) (page : Nat) (s : State) : Host.Outcome State Fault Refusal :=
  .next (s.request tag (.profileClose page) (·.serveClose tag page))

def execProfileErase (tag : Byte) (page : Nat) (s : State) : Host.Outcome State Fault Refusal :=
  .next (s.request tag (.profileErase page) (·.serveErase tag page))

def execProfileList (tag : Byte) (s : State) : Host.Outcome State Fault Refusal :=
  .next (s.request tag .profileList (·.serveList tag))

def execRecordGet (tag : Byte) (n : Nat) (s : State) : Host.Outcome State Fault Refusal :=
  .next (s.request tag (.recordGet n) (·.serveGet tag n))

def execRecordRelease (tag : Byte) (n : Nat) (s : State) : Host.Outcome State Fault Refusal :=
  .next (s.request tag (.recordRelease n) (·.serveRelease tag n))

def execReset (s : State) : Host.Outcome State Fault Refusal := .next s.resetPart

def execDispatch (s : State) : Host.Outcome State Fault Refusal := .next s.dispatch

end Sys2Proof.Machine
end

