-- ==== Sys2Proof/Machine/Sample.lean ====
section
/-! DEFINITION. The position sample (R48): measured quantities, release and reports of the Quench Unit, counting of Zone
Accounting, tachometer, limit tests, the test of the mode in force, the braking point, the advance. Log 8 gives the order where
R48 leaves one open. -/

namespace Sys2Proof.Machine

/-! ### What the sample reads (R48 to R50, R65) -/

/-- The operands of a sample: encoder counts since the last one, tachometer, the three switches. -/
structure Reading where
  counts : Int
  rpm : Nat
  refSwitch : Bool
  lowSwitch : Bool
  highSwitch : Bool
  deriving DecidableEq, Repr

/-- Position, history, speed, still count, and the tachometer's 0..1,000 rpm (R48, R49, R50, R65). -/
def State.readSample (s : State) (r : Reading) : State :=
  s.onTravel fun t => { t.measure r.counts with rpm := min r.rpm 1000 }

/-- The sample and its movement counted to the current zone (R157). -/
def State.countSample (s : State) (before : Int) : State :=
  s.onZones (·.onOpen (·.sample (s.seq.state == .running) s.power.inhibit before s.travel.position))

/-! ### The Quench Unit's share (R97 to R100, R107) -/

/-- Releases of both trails at a sample at which the stopped condition does not hold (R99), and the report when they leave both
empty (R100). -/
def State.releaseSample (s : State) : State :=
  match s.seq.passDir with
  | some d =>
    if s.travel.stopped then s
    else
      let go : Quench → Ring → Quench := fun q r =>
        q.release s.cfg.quench d s.travel.position s.travel.speed r
      let s1 := s.onQuench fun q => go (go q .q1) .q2
      if s1.quench.trailsEmpty && !s.quench.trailsEmpty then s1.trailsEmptyReport else s1
  | none => s

/-- The quench-short report of one ring: while its condition is present and a record is open, at the ring's spray position
(R107, R159). -/
def State.quenchShort (s : State) (r : Ring) : State :=
  match s.seq.passDir with
  | some d =>
    if s.quench.flowLow r.circuit then
      s.onZones (·.onOpen (·.quenchShort
        (sprayPosition d s.travel.position (s.cfg.quench.offset.get r))))
    else s
  | none => s

def State.quenchSample (s : State) : State := (s.releaseSample.quenchShort .q1).quenchShort .q2

/-! ### Tachometer and limits (R54, R59 to R61, R65) -/

/-- The low count at a sample: up by one while below half the command under heat, 0 and the condition absent otherwise (R65). -/
def Travel.tacho (t : Travel) (heating : Bool) : Travel :=
  if heating && decide (0 < t.spindleCommand) && decide (t.rpm * 2 < t.spindleCommand) then
    { t with lowCount := min (t.lowCount + 1) 100 }
  else { t with lowCount := 0, spindleLow := false }

/-- The soft limits (R59). -/
def State.testSoft (s : State) : State :=
  let now := s.travel.softViolation s.cfg.machine
  (s.onTravel ({ · with overSoft := now })).raiseIf s.travel.overSoft now .overtravel

/-- The low switch (R60). The condition needs movement, so a HOME from standstill on an active low switch raises nothing at its first
sample; with the reference switch active too the run ends there (the model's reading, log 30). -/
def State.testLow (s : State) (active : Bool) : State :=
  let now := active && s.travel.movesReverse
  (s.onTravel ({ · with overLow := now })).raiseIf s.travel.overLow now .overtravel

/-- The high switch (R60). -/
def State.testHigh (s : State) (active : Bool) : State :=
  let now := active && s.travel.movesForward
  (s.onTravel ({ · with overHigh := now })).raiseIf s.travel.overHigh now .overtravel

/-- The encoder fault input: present while it is active, and its becoming present clears the reference flag (R61, R67). -/
def State.testEncoder (s : State) (active : Bool) : State :=
  let s1 := s.onTravel fun t =>
    { t with encoderFault := active, referenced := t.referenced && (!active || t.encoderFault) }
  s1.raiseIf s.travel.encoderFault active .encoderFault

/-- The following error (R54). -/
def State.testFollow (s : State) : State :=
  let now := s.travel.followViolation s.cfg.machine
  (s.onTravel ({ · with followingError := now })).raiseIf s.travel.followingError now
    .followingError

/-- The conditions of a sample in the order of R48. -/
def State.testLimits (s : State) (r : Reading) : State :=
  ((((s.testSoft.testLow r.lowSwitch).testHigh r.highSwitch).testEncoder s.inputs.encoder).testFollow)

/-! ### The test of the mode in force (R55, R62, R63) -/

/-- The Active motion step has reached its end in the pass direction (R35, R55). -/
def State.stepEndDue (s : State) : Bool :=
  match s.seq.active with
  | some a =>
    a.step.isMotion && (match a.dir with | some d => d.reached s.travel.position a.stop | none => false)
  | none => false

/-- SEEK: the switch, or the stroke used up (R62). -/
def State.seekSample (s : State) (switch : Bool) : State :=
  if s.travel.mode = .seek then
    if switch then s.onTravel fun t => { t.orderStopping with switchFound := true }
    else
      match s.travel.homingStart with
      | some h =>
        if (s.travel.position - h).natAbs > s.cfg.machine.homingStroke then
          s.onTravel Travel.orderStopping
        else s
      | none => s
  else s

/-- The arrival of a MOVE-TO is seen; ARRIVED follows as its own step (R63). -/
def State.arrivalSample (s : State) : State :=
  if s.seq.state = .positioning ∧ s.travel.mode = .target then
    match s.travel.stopPoint with
    | some p =>
      if (match s.travel.dir with | some d => d.reached s.travel.position p | none => true) then
        s.onTravel ({ · with arrivalSeen := true })
      else s
    | none => s
  else s

/-! ### The braking point (R56) -/

/-- Next lets the carriage carry on: a motion step in the Active step's direction that is no turn (R56). -/
def State.carriesOn (s : State) (a : Admitted) : Bool :=
  match s.seq.next with
  | some n => n.step.isMotion && !n.turn && n.dir == a.dir
  | none => false

/-- The braking decision, made once for the Active motion step (R56). -/
def State.brakeSample (s : State) : State :=
  match s.seq.active with
  | some a =>
    if a.step.isMotion && s.travel.mode == .scan && s.travel.decision == .none &&
        s.travel.atBrakingPoint s.cfg.machine a.stop then
      if s.carriesOn a then s.onTravel ({ · with decision := .continue })
      else s.onTravel (·.decideBrake s.cfg.machine a.stop)
    else s
  | none => s

/-- The step end of a sample, or else its braking point test (R35, R56: a sample that ends the step decides nothing for it). -/
def State.scanSample (s : State) : State := if s.stepEndDue then s.stepEnd else s.brakeSample

/-! ### The whole sample -/

def State.positionSample (s : State) (r : Reading) : State :=
  let s1 := ((s.readSample r).countSample s.travel.position).quenchSample
  let s2 := (s1.onTravel (·.tacho s1.heatingZone.isSome)).testLimits r
  let s3 := ((s2.seekSample r.refSwitch).arrivalSample).scanSample
  s3.onTravel (·.drive s3.cfg.machine)

end Sys2Proof.Machine
end

