-- ==== Sys2Proof/Machine/Events.lean ====
section
/-! DEFINITION. The events: 1 ms sample and update, timer expiries, conversions, input changes, the part's own internal steps,
and the events of the line. An event whose condition does not hold (a timer that does not run, a report that is not due) changes
nothing (log 2). -/

namespace Sys2Proof.Machine

/-! ### Timers -/

/-- The 10 ms tick: the scan clock counts while it runs, and a running step timer counts down to the step end (R34, log 5). The clock
counts on beyond the 4,294,967,295 of R160 (the model's choice, log 32). -/
def State.stepTick (s : State) : State :=
  let s1 := s.onSeq fun q => { q with scanClock := q.scanClock.map (· + 1) }
  match s.seq.stepTimer with
  | none => s1
  | some n => if n ≤ 1 then s1.stepEnd else s1.onSeq ({ · with stepTimer := some (n - 1) })

/-- The PRESTART timer's expiry in PRESTART (R26). -/
def State.prestartTimeout (s : State) : State :=
  if s.seq.state = .prestart ∧ s.seq.prestartTimer.isSome = true then s.exitPrestart .prestartTimeout
  else s

/-- A watch becomes LOW: the quench-short report of a ring, then the raise (R104, R105, R107). -/
def State.flowLost (s : State) (k : Circuit) : State :=
  let s1 := s.onQuench fun q => { q with circuit := q.circuit.set k (q.circuit.get k).toLow }
  let s2 := match k with
    | .q1 => s1.quenchShort .q1
    | .q2 => s1.quenchShort .q2
    | .q3 => s1
  s2.raise k.flowLow

/-- The proving timer's expiry in PROVING (R104). -/
def State.provingExpiry (s : State) (k : Circuit) : State :=
  let c := s.quench.circuit.get k
  if c.watch = .proving ∧ c.proving.isSome = true then s.flowLost k else s

/-- The dropout timer's expiry in PROVED (R105). -/
def State.dropoutExpiry (s : State) (k : Circuit) : State :=
  let c := s.quench.circuit.get k
  if c.watch = .proved ∧ c.dropout.isSome = true then s.flowLost k else s

/-- The flood timer's expiry, and the flood-complete report, which counts when a STOP_FLOOD response waits for it (R103, R142). -/
def State.floodExpired (s : State) : State :=
  if s.quench.floodTimer.isSome then
    let s1 := s.onQuench (·.floodExpiry s.cfg.quench)
    if s1.seq.state = .tripping ∧ s1.trip.response = some .stopFlood then
      (s1.onTrip ({ · with floodSeen := true })).tripProgress
    else s1
  else s

/-- The coil water timer's expiry makes COIL_WATER_LOW present and raises it (R132). DESIGN CHOICE (log 35), unsafe: so does that of a
timer that was running when the minimum was written to 0; R150 lets a new threshold act from the next published value, and says that
at a minimum of 0 the source can never arise. -/
def State.coilWaterExpired (s : State) : State :=
  if s.trip.coilWaterTimer then
    (s.onTrip ({ · with coilWaterTimer := false, coilWaterLow := true })).raiseIf
      s.trip.coilWaterLow true .coilWaterLow
  else s

/-! ### Inputs (R61, R84, R85, R134) -/

/-- READY changes: the ready-seen mark while the enable is on, and INVERTER_LOST (R84). -/
def State.readyChange (s : State) (level : Bool) : State :=
  let s1 := (s.onInputs ({ · with ready := level })).onPower fun p =>
    { p with readySeen := p.readySeen || (p.enable && level) }
  s1.raiseIf s.inverterLost s1.inverterLost .inverterLost

def State.faultChange (s : State) (level : Bool) : State :=
  (s.onInputs ({ · with fault := level })).raiseIf s.inputs.fault level .inverterFault

def State.estopChange (s : State) (level : Bool) : State :=
  (s.onInputs ({ · with estop := level })).raiseIf s.inputs.estop level .estop

def State.encoderChange (s : State) (level : Bool) : State :=
  (s.onInputs ({ · with encoder := level })).testEncoder level

/-! ### Internal steps (R63, R65) -/

/-- The low count stands at 100: SPINDLE_LOW becomes present (R65). -/
def State.lowCountReached (s : State) : State :=
  if s.travel.lowCount = 100 ∧ s.travel.spindleLow = false then
    (s.onTravel ({ · with spindleLow := true })).raise .spindleLow
  else s

/-- A stop point becomes the plan, at rest (R63: HOLD at the target; log 25). -/
def Travel.planAt (t : Travel) (p : Int) : Travel := { t with plan := p * 1000, planSpeed := 0 }

/-- ARRIVED: HOLD at the target, IDLE (R63, R22). -/
def State.arrived (s : State) : State :=
  if s.travel.arrivalSeen = true ∧ s.seq.state = .positioning ∧ s.travel.mode = .target then
    match s.travel.stopPoint with
    | some p =>
      (s.onTravel fun t => { (t.planAt p).orderHold with arrivalSeen := false }).enter .idle .arrived
    | none => s
  else s

/-- The transmitter's frame is out (R191). -/
def State.frameSent (s : State) : State :=
  if s.link.sending.isSome then s.onLink Link.frameSent else s

/-! ### The meanings -/

def execFrameReceived (s : State) : Host.Outcome State Fault Refusal := .next (s.onLink Link.frameReceived)

def execReceiveGapTimeout (s : State) : Host.Outcome State Fault Refusal := .next (s.onLink Link.gap)

def execByteReceived (b : Byte) (s : State) : Host.Outcome State Fault Refusal :=
  .next (s.onLink (·.byteReceived b))

def execFrameSent (s : State) : Host.Outcome State Fault Refusal := .next s.frameSent

def execPositionSample (counts : Int) (rpm : Nat) (refSwitch lowSwitch highSwitch : Bool)
    (s : State) : Host.Outcome State Fault Refusal :=
  .next (s.positionSample
    { counts := counts, rpm := rpm, refSwitch := refSwitch, lowSwitch := lowSwitch,
      highSwitch := highSwitch })

def execPowerUpdate (s : State) : Host.Outcome State Fault Refusal := .next s.powerUpdate

def execStepTimerExpiry (s : State) : Host.Outcome State Fault Refusal := .next s.stepTick

def execPrestartTimeout (s : State) : Host.Outcome State Fault Refusal := .next s.prestartTimeout

def execRequestTimerExpiry (c : Channel) (s : State) : Host.Outcome State Fault Refusal :=
  .next (s.sampleRequest c)

def execConversionComplete (code : Nat) (s : State) : Host.Outcome State Fault Refusal :=
  .next (s.conversionComplete code)

def execCalibrationTimerExpiry (s : State) : Host.Outcome State Fault Refusal :=
  .next s.calibrationExpiry

def execProvingTimerExpiry (k : Circuit) (s : State) : Host.Outcome State Fault Refusal :=
  .next (s.provingExpiry k)

def execDropoutTimerExpiry (k : Circuit) (s : State) : Host.Outcome State Fault Refusal :=
  .next (s.dropoutExpiry k)

def execFloodTimerExpiry (s : State) : Host.Outcome State Fault Refusal := .next s.floodExpired

def execPumpIdleTimerExpiry (s : State) : Host.Outcome State Fault Refusal :=
  .next (s.onQuench Quench.idleExpiry)

def execCoilWaterTimerExpiry (s : State) : Host.Outcome State Fault Refusal :=
  .next s.coilWaterExpired

def execLowCountReached (s : State) : Host.Outcome State Fault Refusal := .next s.lowCountReached

def execReadyInputChange (level : Bool) (s : State) : Host.Outcome State Fault Refusal :=
  .next (s.readyChange level)

def execFaultInputChange (level : Bool) (s : State) : Host.Outcome State Fault Refusal :=
  .next (s.faultChange level)

def execEmergencyStopInput (level : Bool) (s : State) : Host.Outcome State Fault Refusal :=
  .next (s.estopChange level)

def execEncoderFaultInput (level : Bool) (s : State) : Host.Outcome State Fault Refusal :=
  .next (s.encoderChange level)

def execStoppingComplete (s : State) : Host.Outcome State Fault Refusal := .next s.stoppingComplete

def execArrived (s : State) : Host.Outcome State Fault Refusal := .next s.arrived

def execReturned (s : State) : Host.Outcome State Fault Refusal := .next s.returned

def execTurnStoppedActivation (s : State) : Host.Outcome State Fault Refusal :=
  .next s.turnStoppedActivation

def execEnterRunning (s : State) : Host.Outcome State Fault Refusal := .next s.enterRunning

def execAdmission (s : State) : Host.Outcome State Fault Refusal := .next s.admission

def execLoaderAppend (s : State) : Host.Outcome State Fault Refusal := .next s.loaderAppend

end Sys2Proof.Machine
end

