-- ==== Sys2Proof/Machine/Dispatch.lean ====
section
/-! DEFINITION. The meaning of each command: one arm per constructor of `Instr`. -/

namespace Sys2Proof.Machine

def exec (i : Instr) (s : State) : Host.Outcome State Fault Refusal :=
  match i with
  | .status tag => Sys2Proof.Machine.execStatus tag s
  | .configureMachine tag items => Sys2Proof.Machine.execConfigureMachine tag items s
  | .configureQuench tag items => Sys2Proof.Machine.execConfigureQuench tag items s
  | .configureMeasure tag items => Sys2Proof.Machine.execConfigureMeasure tag items s
  | .configureTrip tag items => Sys2Proof.Machine.execConfigureTrip tag items s
  | .configureFlow tag items => Sys2Proof.Machine.execConfigureFlow tag items s
  | .configurePrestart tag items => Sys2Proof.Machine.execConfigurePrestart tag items s
  | .restart tag => Sys2Proof.Machine.execRestart tag s
  | .home tag => Sys2Proof.Machine.execHome tag s
  | .moveTo tag target speed => Sys2Proof.Machine.execMoveTo tag target speed s
  | .stop tag => Sys2Proof.Machine.execStop tag s
  | .startProfile tag page part => Sys2Proof.Machine.execStartProfile tag page part s
  | .startStream tag part windows => Sys2Proof.Machine.execStartStream tag part windows s
  | .step tag record => Sys2Proof.Machine.execStep tag record s
  | .trim tag t sp method => Sys2Proof.Machine.execTrim tag t sp method s
  | .inhibitOn tag => Sys2Proof.Machine.execInhibitOn tag s
  | .inhibitOff tag => Sys2Proof.Machine.execInhibitOff tag s
  | .forceTrip tag => Sys2Proof.Machine.execForceTrip tag s
  | .clearTrip tag => Sys2Proof.Machine.execClearTrip tag s
  | .profileOpen tag page size zones steps name => Sys2Proof.Machine.execProfileOpen tag page size zones steps name s
  | .profileData tag page records => Sys2Proof.Machine.execProfileData tag page records s
  | .profileClose tag page => Sys2Proof.Machine.execProfileClose tag page s
  | .profileErase tag page => Sys2Proof.Machine.execProfileErase tag page s
  | .profileList tag => Sys2Proof.Machine.execProfileList tag s
  | .recordGet tag number => Sys2Proof.Machine.execRecordGet tag number s
  | .recordRelease tag number => Sys2Proof.Machine.execRecordRelease tag number s
  | .reset => Sys2Proof.Machine.execReset s
  | .frameReceived => Sys2Proof.Machine.execFrameReceived s
  | .receiveGapTimeout => Sys2Proof.Machine.execReceiveGapTimeout s
  | .dispatch => Sys2Proof.Machine.execDispatch s
  | .frameSent => Sys2Proof.Machine.execFrameSent s
  | .positionSample counts rpm refSwitch lowSwitch highSwitch => Sys2Proof.Machine.execPositionSample counts rpm refSwitch lowSwitch highSwitch s
  | .powerUpdate => Sys2Proof.Machine.execPowerUpdate s
  | .stepTimerExpiry => Sys2Proof.Machine.execStepTimerExpiry s
  | .prestartTimeout => Sys2Proof.Machine.execPrestartTimeout s
  | .requestTimerExpiry channel => Sys2Proof.Machine.execRequestTimerExpiry channel s
  | .conversionComplete code => Sys2Proof.Machine.execConversionComplete code s
  | .calibrationTimerExpiry => Sys2Proof.Machine.execCalibrationTimerExpiry s
  | .provingTimerExpiry circuit => Sys2Proof.Machine.execProvingTimerExpiry circuit s
  | .dropoutTimerExpiry circuit => Sys2Proof.Machine.execDropoutTimerExpiry circuit s
  | .floodTimerExpiry => Sys2Proof.Machine.execFloodTimerExpiry s
  | .pumpIdleTimerExpiry => Sys2Proof.Machine.execPumpIdleTimerExpiry s
  | .coilWaterTimerExpiry => Sys2Proof.Machine.execCoilWaterTimerExpiry s
  | .lowCountReached => Sys2Proof.Machine.execLowCountReached s
  | .readyInputChange level => Sys2Proof.Machine.execReadyInputChange level s
  | .faultInputChange level => Sys2Proof.Machine.execFaultInputChange level s
  | .emergencyStopInput level => Sys2Proof.Machine.execEmergencyStopInput level s
  | .encoderFaultInput level => Sys2Proof.Machine.execEncoderFaultInput level s
  | .stoppingComplete => Sys2Proof.Machine.execStoppingComplete s
  | .arrived => Sys2Proof.Machine.execArrived s
  | .returned => Sys2Proof.Machine.execReturned s
  | .turnStoppedActivation => Sys2Proof.Machine.execTurnStoppedActivation s
  | .enterRunning => Sys2Proof.Machine.execEnterRunning s
  | .admission => Sys2Proof.Machine.execAdmission s
  | .loaderAppend => Sys2Proof.Machine.execLoaderAppend s
  | .byteReceived byte => Sys2Proof.Machine.execByteReceived byte s

end Sys2Proof.Machine
end

