-- ==== Sys2Proof/Safety.lean ====
section
/-! DEFINITION. The terms claims are stated in: which blocks a command leaves alone, when the link takes a request at once, what a
latching trip leaves, and the invariants of the part, each from the rule it cites. -/

namespace Sys2Proof.Machine

/-! ### Frames -/

/-- The blocks of State. -/
inductive Block where
  | cfg | seq | travel | power | quench | meas | trip | zones | store | link | inputs
  deriving DecidableEq, Repr

/-- Every block but the named ones, and the queue of waiting commands, is the same in both states. -/
def Keeps (s t : State) (but : List Block) : Prop :=
  t.pending = s.pending ∧ (.cfg ∈ but ∨ t.cfg = s.cfg) ∧ (.seq ∈ but ∨ t.seq = s.seq) ∧
    (.travel ∈ but ∨ t.travel = s.travel) ∧ (.power ∈ but ∨ t.power = s.power) ∧
    (.quench ∈ but ∨ t.quench = s.quench) ∧ (.meas ∈ but ∨ t.meas = s.meas) ∧
    (.trip ∈ but ∨ t.trip = s.trip) ∧ (.zones ∈ but ∨ t.zones = s.zones) ∧
    (.store ∈ but ∨ t.store = s.store) ∧ (.link ∈ but ∨ t.link = s.link) ∧
    (.inputs ∈ but ∨ t.inputs = s.inputs)

/-- The request is taken at once: it carries a tag, nothing waits before it and a reply place is free (R187, R188, log 6). -/
def Taken (s : State) (tag : Byte) : Prop := tag ≠ 0#8 ∧ s.takesAtOnce = true

/-- The state with this reply placed and nothing else changed: what a refusal leaves (R188, R189). -/
def State.replied (s : State) (kind tag : Byte) (result : ResultCode) (payload : List Byte) : State :=
  { s with link := s.link.placeReply ⟨kind, tag, result, payload⟩ }

/-! ### Valves, trails and notices -/

/-- A circuit set OPEN: from CLOSED its watch starts PROVING with its timer, or is PROVED at once with a flow-min of 0; an open valve and
its watch go on as they stand (R92, R102, R104). -/
def CircuitState.opened (w : CircuitState) (c : QuenchCfg) (k : Circuit) : CircuitState :=
  if w.valve then w
  else if c.flowMin.get k = 0 then ⟨true, .proved, none, none⟩
  else ⟨true, .proving, some c.proving, none⟩

/-- The circuit after entries have left its trail, head first: ON opens the valve, OFF closes it and ends the watch (R99, R104, R106). -/
def CircuitState.passed (w : CircuitState) (c : QuenchCfg) (k : Circuit) (gone : List TrailEntry) :
    CircuitState :=
  gone.foldl (fun w e => if e.on then w.opened c k else .closed) w

/-- The quench state after the Active step has left Active: a SPRAY step closes Q3 when SPRAY still owns it (R35, R45, R102). -/
def State.unsprayed (s : State) : Quench :=
  match s.seq.active.map Admitted.step with
  | some (.spray _) =>
    if s.quench.q3Owner = .spray then
      { s.quench with circuit := { s.quench.circuit with q3 := .closed }, q3Owner := .none }
    else s.quench
  | _ => s.quench

/-- From `q` to `q'` a ring's trail has been asked to leave its circuit in a state from a position on: it stays when it does so already;
the entry joins an empty trail, and one whose last entry the position lies beyond in the pass direction; else the last entry leaves
instead (R94, R95), and an empty trail has no TRAIL_FULL mark (R96). The trail has a free place. -/
def Asked (q q' : Quench) (dir : Option Dir) (r : Ring) (on : Bool) (pos : Int) : Prop :=
  let trail := q.trail.get r
  q'.trail.get r =
    if q.lastState r = on then trail
    else match trail.entries.getLast? with
      | none => { trail with entries := [⟨pos, on⟩] }
      | some e =>
        if (match dir with | some d => d.beyond pos e.pos | none => true) then
          { trail with entries := trail.entries ++ [⟨pos, on⟩] }
        else
          { entries := trail.entries.dropLast,
            fullMark := trail.fullMark && decide (1 < trail.entries.length) }

/-- The settings of a HEAT or MOVE step, one for each ring (R6). -/
def ScanStep.settings? : ScanStep → Option (PerRing QSetting)
  | .heat _ _ _ _ x y _ | .move _ _ x y => some ⟨x, y⟩
  | _ => none

/-- The state a quench setting asks for, KEEP for the one the trail ends in (R6, R94). -/
def QSetting.asks (x : QSetting) (last : Bool) : Bool :=
  match x with
  | .keep => last
  | .on => true
  | .off => false

/-- The link after a STATE notice with no trip source (R20, R192). -/
def Link.stated (l : Link) (st : SeqState) (c : Cause) : Link := l.placeNotice (.state st c none)

/-- The link after the MARK notices of some mark numbers, in order (R12, R32, R192). -/
def Link.marked (l : Link) (marks : List Nat) : Link :=
  marks.foldl (fun l n => l.placeNotice (.mark n)) l

/-! ### Trips -/

/-- Output, code and enable are off (R70). -/
def Power.isOff (p : Power) : Prop := p.pOut = 0 ∧ p.code = 0 ∧ p.enable = false

/-- The zero order: output, code and enable off, nothing else of the block changed (R70). -/
def Power.off (p : Power) : Power :=
  { p with
    pOut := 0, code := 0, ceiling := .none, underFloor := false, enable := false,
    readySeen := false }

/-- Queue, Next, Active, source, flow state, loader, step timer and turn phase as a flush leaves them (R45, R139). -/
def Seq.isFlushed (q : Seq) : Prop :=
  q.queue = [] ∧ q.next = none ∧ q.active = none ∧ q.source = .none ∧ q.flow = .flowing ∧
    q.loader = none ∧ q.stepTimer = none ∧ q.turnPhase = .none

/-- The trip record of a latching trip taken in state `s` (R138). -/
def TripRecord.tells (r : TripRecord) (s : State) (src : Source) (ch : Option Channel) : Prop :=
  r.cause = src ∧ r.channel = ch ∧ r.state = s.seq.state ∧ r.position = s.travel.position ∧
    r.speed = s.travel.speed ∧ r.pOut = s.power.pOut ∧
    r.active = s.seq.active.map (fun a => (a.origin, a.index)) ∧ r.time = s.seq.scanClock

/-- The link after a latching trip taken in state `s`: the TRIP notice, then the STATE notices with the first cause, of TRIPPING outside
IDLE and UNREFERENCED and of TRIPPED where the trip has gone on into it, then the RECORD notice of a record closed with it (R20,
R137, R143, R144, R145, R192; that STATE stands before RECORD is log 13). -/
def State.tripTold (s : State) (src : Source) (ch : Option Channel) (entered : Bool) : Link :=
  let told := s.link.placeNotice (.trip src ch)
  let moved := if s.seq.state.isRest then told
    else told.placeNotice (.state .tripping .trip (some src))
  let ended := moved.placeNotice (.state .tripped .trip (some src))
  if entered then
    match s.zones.openRec with
    | some r => ended.placeNotice (.record r.number)
    | none => ended
  else moved

/-- A latching trip from `s` has been taken: latch, record, state, zero order, flush, end cause, notices; what a trip leaves alone (R137,
R138, R139). -/
def Latched (s t : State) (src : Source) (ch : Option Channel) : Prop :=
  t.trip.latch = true ∧ (∃ r, t.trip.record = some r ∧ r.tells s src ch) ∧
    (if s.seq.state.isRest then t.seq.state = .tripped
     else t.seq.state = .tripping ∨ t.seq.state = .tripped) ∧
    t.power.isOff ∧ t.power.acc = s.power.acc ∧ t.power.inhibit = s.power.inhibit ∧
    t.seq.isFlushed ∧ t.seq.trimT = s.seq.trimT ∧ t.seq.trimS = s.seq.trimS ∧
    t.seq.shadow = s.seq.shadow ∧ t.seq.linkCount = s.seq.linkCount ∧
    t.seq.lastEnd = (if s.seq.state.isScan then some .tripped else s.seq.lastEnd) ∧
    t.travel.position = s.travel.position ∧ t.travel.speed = s.travel.speed ∧
    t.meas = s.meas ∧ t.cfg = s.cfg ∧ t.store.pages = s.store.pages ∧ t.pending = s.pending ∧
    t.link = s.tripTold src ch (t.seq.state == .tripped)

/-- What a HALT leaves: drive off and disabled, valves closed, trails empty, no flood, pump OFF, spindle 0, TRIPPED (R101, R143,
R144). -/
def Halted (t : State) : Prop :=
  t.seq.state = .tripped ∧ t.travel.mode = .disabled ∧ t.travel.driveEnable = false ∧
    t.travel.speedCommand = 0 ∧ t.travel.spindleCommand = 0 ∧ t.quench.trailsEmpty = true ∧
    t.quench.circuit = ⟨.closed, .closed, .closed⟩ ∧ t.quench.q3Owner = .none ∧
    t.quench.floodTimer = none ∧ t.quench.pump = false ∧ t.quench.idleTimer = none

/-- The orders that the response `r` gives at a latching trip taken in state `s`. RUNOUT: both rings end OFF, the valves as they are;
the trails drain, after coming to rest where the carriage returns from a turn (in TARGET), or the carriage stops (R140). STOP: the
discard and the stop (R141). STOP_FLOOD: the flood on Q3 with them (R142). HALT: R143. In IDLE and UNREFERENCED the carriage stands
(R145). A carriage that meets the stopped condition counts as stopped at once; that it stays in STOPPING then is log 28. -/
def Responds (s t : State) (r : Response) : Prop :=
  let rest := s.seq.state.isRest
  let discarded := t.quench.trailsEmpty = true ∧ t.quench.circuit.q1 = .closed ∧
    t.quench.circuit.q2 = .closed
  let stands := t.travel.mode = s.travel.mode ∧ t.travel.plan = s.travel.plan ∧
    t.travel.planSpeed = s.travel.planSpeed
  let stops := if rest then stands
    else s.travel.mode ≠ .disabled → t.travel.mode = .stopping ∧ t.travel.targetSpeed = 0
  let ends := t.seq.state = if rest = true ∨ s.travel.still = 20 then .tripped else .tripping
  t.trip.response = some r ∧
    match r with
    | .runout =>
      t.quench.circuit.q1 = s.quench.circuit.q1 ∧ t.quench.circuit.q2 = s.quench.circuit.q2 ∧
        (rest = true → stands ∧ t.quench.trail = s.quench.trail) ∧
        (rest = false → t.quench.lastState .q1 = false ∧ t.quench.lastState .q2 = false ∧
          (t.quench.trailsEmpty = true → t.trip.trailsSeen = true ∧ stops ∧ ends) ∧
          (t.quench.trailsEmpty = false → t.seq.state = .tripping ∧
            (s.travel.mode = .target → t.travel.mode = .stopping) ∧
            (s.travel.mode ≠ .target → s.travel.mode ≠ .disabled → s.seq.passDir ≠ none →
              t.travel.mode = .drain ∧ t.travel.dir = s.seq.passDir ∧
                t.travel.targetSpeed = s.seq.heatSpeed.getD s.cfg.machine.drainSpeed)))
    | .stop =>
      discarded ∧ stops ∧ ends ∧
        (s.quench.q3Owner ≠ .spray → t.quench.circuit.q3 = s.quench.circuit.q3 ∧
          t.quench.q3Owner = s.quench.q3Owner ∧ t.quench.floodTimer = s.quench.floodTimer) ∧
        (∀ a n, s.seq.active = some a → a.step = .spray n → s.quench.q3Owner = .spray →
          t.quench.circuit.q3 = .closed ∧ t.quench.q3Owner = .none)
    | .stopFlood =>
      discarded ∧ stops ∧ t.seq.state = (if rest then .tripped else .tripping) ∧
        (rest = false → t.trip.stoppedSeen = decide (s.travel.still = 20)) ∧
        t.quench.q3Owner = .flood ∧
        (s.quench.q3Owner = .flood → t.quench.circuit.q3 = s.quench.circuit.q3 ∧
          t.quench.floodTimer = s.quench.floodTimer) ∧
        (s.quench.q3Owner ≠ .flood → t.quench.circuit.q3.valve = true ∧
          t.quench.floodTimer = some s.cfg.quench.flood)
    | .halt => Halted t

/-! ### Ends of a scan -/

/-- The quench state after a start of the pump idle timer (R109, R110). -/
def Quench.idling (q : Quench) (idle : Nat) : Quench :=
  if q.idleTimer.isSome then q
  else if idle = 0 then { q with pump := false, idleTimer := none, idleDeferred := false }
  else { q with idleTimer := some idle, idleDeferred := false }

/-- A record `pr` closed from the open record `r` with an end cause at a scan time (R160, R164). -/
def ClosedFrom (r : OpenRecord) (pr : PartRecord) (c : EndCause) (time : Nat)
    (trip : Option TripRecord) : Prop :=
  pr = r.close c time trip ∧ pr.number = r.number ∧ pr.part = r.part ∧ pr.page = r.page ∧ pr.source = r.source ∧
    pr.endCause = c ∧ pr.scanTime = time ∧ pr.warn = r.warn ∧ pr.trip = trip ∧
    pr.zones.length = r.zones.length ∧ (r.powered = false → pr.verdict = .notRun)

/-- The exit from PRESTART to IDLE with an end cause, every block of the part told; `l` is the link before its notices (R26, R70,
R109, R160, R178). -/
def LeftPrestart (s t : State) (c : EndCause) (l : Link) : Prop :=
  t.seq = { s.seq with
      state := .idle, turnPhase := .none, queue := [], next := none, active := none,
      source := .none, flow := .flowing, loader := none, stepTimer := none, prestartTimer := none,
      lastEnd := some c, passDir := none, scanClock := none, segClosed := false } ∧
    t.power = s.power.off ∧
    t.travel = { s.travel with
      spindleCommand := 0,
      lowCount := if s.travel.spindleCommand = 0 then s.travel.lowCount else 0 } ∧
    t.quench = s.quench.idling s.cfg.quench.pumpIdle ∧ t.store = { s.store with inUse := none } ∧
    (∀ r, s.zones.openRec = some r →
      (∃ pr, ClosedFrom r pr c (s.seq.scanClock.getD 0) none ∧
        t.zones = { s.zones with closed := s.zones.closed ++ [pr], openRec := none }) ∧
      t.link = (l.stated .idle (.scanEnd c)).placeNotice (.record r.number)) ∧
    Keeps s t [.seq, .power, .travel, .quench, .store, .zones, .link]

/-- The response of a trip is complete and TRIPPED entered: the notices, spindle 0, the pump idle timer, and the record of a scan closed
with a copy of the trip record (R144; that STATE stands before RECORD is log 13). -/
def EnteredTripped (s t : State) : Prop :=
  let l := s.link.placeNotice (.state .tripped .trip (s.trip.record.map (·.cause)))
  t.seq = { s.seq with state := .tripped, passDir := none, scanClock := none, segClosed := false } ∧
    t.travel = { s.travel with
      spindleCommand := 0,
      lowCount := if s.travel.spindleCommand = 0 then s.travel.lowCount else 0 } ∧
    t.quench = (if s.quench.pump then s.quench.idling s.cfg.quench.pumpIdle else s.quench) ∧
    t.store = { s.store with inUse := none } ∧ t.trip = { s.trip with responseDone := true } ∧
    (∀ r, s.zones.openRec = some r →
      (∃ pr, ClosedFrom r pr .tripped (s.seq.scanClock.getD 0) s.trip.record ∧
        t.zones = { s.zones with closed := s.zones.closed ++ [pr], openRec := none }) ∧
      t.link = l.placeNotice (.record r.number)) ∧
    (s.zones.openRec = none → t.zones = s.zones ∧ t.link = l) ∧
    Keeps s t [.seq, .travel, .quench, .store, .trip, .zones, .link]

/-- RUNOUT entered with an end cause, `stop` the nominal end of the Active step at a step end and none in every other case (R45): end
cause and STATE notice, zero order, spindle 0, the notices of the marks left, the flush with the close of Q3 when a SPRAY step
leaves Active (R102), an OFF request for each ring at the nominal end or at the present coil position (R95), and the motion of the
run-out (R46): a stop when the trails are empty, a drain in the pass direction when they are not, after coming to rest when the
carriage returns from a turn. With the trails empty and the carriage at rest the run-out is complete at once, the mode as it is (R51)
and the record closed (that STATE stands before RECORD is log 13). -/
def EnteredRunout (s t : State) (c : EndCause) (stop : Option Int) : Prop :=
  let pos := stop.getD s.travel.position
  let atOnce := t.quench.trailsEmpty = true ∧ s.travel.planSpeed = 0 ∧ s.travel.still = 20
  let q := { s.unsprayed with trail := t.quench.trail }
  let l := (s.link.stated .runout (.scanEnd c)).marked (headMarks s.seq.queue)
  let l' := l.stated .idle (.scanEnd c)
  t.seq = { s.seq with
      state := if atOnce then .idle else .runout
      turnPhase := .none, queue := [], next := none, active := none, source := .none,
      flow := .flowing, loader := none, stepTimer := none, prestartTimer := none, lastEnd := some c
      passDir := if atOnce then none else s.seq.passDir
      scanClock := if atOnce then none else s.seq.scanClock
      segClosed := if atOnce then false else s.seq.segClosed } ∧
    t.power = s.power.off ∧
    Asked s.unsprayed t.quench s.seq.passDir .q1 false pos ∧
    Asked s.unsprayed t.quench s.seq.passDir .q2 false pos ∧
    t.quench = (if atOnce then q.idling s.cfg.quench.pumpIdle else q) ∧
    t.quench.lastState .q1 = false ∧ t.quench.lastState .q2 = false ∧
    t.travel.position = s.travel.position ∧ t.travel.spindleCommand = 0 ∧
    (atOnce → t.travel.mode = s.travel.mode) ∧
    (¬atOnce → s.travel.mode ≠ .disabled →
      if t.quench.trailsEmpty = true ∨ s.seq.turnPhase = .return ∨ s.seq.passDir = none then
        t.travel.mode = .stopping ∧ t.travel.targetSpeed = 0
      else t.travel.mode = .drain ∧ t.travel.dir = s.seq.passDir ∧
        t.travel.targetSpeed = s.seq.heatSpeed.getD s.cfg.machine.drainSpeed) ∧
    (¬atOnce → t.link = l ∧ t.store = s.store ∧
      t.zones = { s.zones with openRec := s.zones.openRec.map ({ · with current := none }) }) ∧
    (atOnce → t.store = { s.store with inUse := none } ∧
      (∀ r, s.zones.openRec = some r → t.link = l'.placeNotice (.record r.number) ∧
        ∃ pr, ClosedFrom r pr c (s.seq.scanClock.getD 0) none ∧
          t.zones = { s.zones with closed := s.zones.closed ++ [pr], openRec := none }) ∧
      (s.zones.openRec = none → t.link = l' ∧ t.zones = s.zones)) ∧
    Keeps s t [.seq, .power, .travel, .quench, .store, .zones, .link]

/-! ### Further trips -/

/-- The orders of a HALT: drive off and disabled, trails emptied, all valves closed, a flood ended, pump OFF, spindle 0 (R101, R143). -/
def State.halted (s : State) : State :=
  { s with
    travel := { s.travel with
      mode := .disabled, driveEnable := false, speedCommand := 0, plan := s.travel.position * 1000,
      planSpeed := 0, targetSpeed := 0, stopPoint := none, dir := none, finish := .none,
      decision := .none, spindleCommand := 0,
      lowCount := if s.travel.spindleCommand = 0 then s.travel.lowCount else 0 }
    quench := { s.quench with
      trail := ⟨.empty, .empty⟩, circuit := ⟨.closed, .closed, .closed⟩, q3Owner := .none,
      floodTimer := none, pump := false, idleTimer := none, idleDeferred := false } }

/-- STOP_FLOOD in place of the response in force: zero order, discard, the flood on Q3 unless one runs, the stop, the reports awaited
afresh (R142, R146; that a carriage found stopped stays in STOPPING is log 28). -/
def State.floodTaken (s : State) : State :=
  let flows := s.quench.q3Owner = .flood
  { s with
    power := s.power.off
    quench := { s.quench with
      trail := ⟨.empty, .empty⟩
      circuit := ⟨.closed, .closed, if flows then s.quench.circuit.q3
        else s.quench.circuit.q3.opened s.cfg.quench .q3⟩
      q3Owner := .flood
      floodTimer := if flows then s.quench.floodTimer else some s.cfg.quench.flood }
    travel := if s.travel.mode = .disabled then s.travel
      else { s.travel with
        mode := .stopping, targetSpeed := 0, stopPoint := none, dir := none, finish := .none,
        decision := .none }
    trip := { s.trip with
      response := some .stopFlood, responseDone := false, trailsSeen := false, floodSeen := false,
      stoppedSeen := decide (s.travel.still = 20) } }

/-- The trip record after a further trip: the source among the later causes, the count up to 255 (R138). -/
def TripRecord.also (r : TripRecord) (src : Source) : TripRecord :=
  { r with later := insertSource src r.later, count := min (r.count + 1) 255 }

/-- A further trip of a source, present in `s`, has been taken in TRIPPING or TRIPPED: the record; a HALT with its orders, in TRIPPING
after the zero order and on into TRIPPED; STOP_FLOOD in place of a RUNOUT in force; and nothing more, no notice either, in every
other case (R138, R146, R147). -/
def FurtherTrip (s t : State) (src : Source) : Prop :=
  ∀ r, s.trip.record = some r →
    let noted := { s with trip := { s.trip with record := some (r.also src) } }
    let halts := s.cfg.trip.responseOf src = .halt
    (¬halts → s.seq.state = .tripped ∨
      (s.seq.state = .tripping ∧ s.trip.response ≠ some .runout) → t = noted) ∧
    (¬halts → s.seq.state = .tripping → s.trip.response = some .runout → t = noted.floodTaken) ∧
    (halts → s.seq.state = .tripped → t = noted.halted) ∧
    (halts → s.seq.state = .tripping → EnteredTripped
      { noted.halted with
        power := s.power.off
        trip := { noted.trip with
          response := some .halt, responseDone := false, trailsSeen := false, stoppedSeen := false,
          floodSeen := false } } t)

/-! ### Flags of the open record -/

/-- The record list after a WARN flag: on the zone of the HEAT or DWELL step Active in RUNNING, on the record as a whole in every other
case (R135, R158). -/
def State.warned (s : State) : Zones :=
  { s.zones with
    openRec := s.zones.openRec.map fun r =>
      match s.heatingZone with
      | some z => { r with zones := r.zones.mapIdx fun i e =>
          if i = z then { e with acc := { e.acc with warn := true } } else e }
      | none => { r with warn := true } }

/-- The shaft position under a ring (R97). -/
def State.under (s : State) (d : Dir) (r : Ring) : Int :=
  s.travel.position - d.sign * (s.cfg.quench.offset.get r : Int)

/-- The record list after a quench-short report of a ring: every zone whose heated extent contains the ring's spray position, its ends
included, is flagged (R107, R159). -/
def State.shorted (s : State) (r : Ring) : Zones :=
  match s.seq.passDir with
  | some d =>
    { s.zones with
      openRec := s.zones.openRec.map fun o => { o with
        zones := o.zones.map fun e =>
          match e.acc.extent with
          | some (lo, hi) =>
            if lo ≤ s.under d r ∧ s.under d r ≤ hi then
              { e with acc := { e.acc with quenchShort := true } }
            else e
          | none => e } }
  | none => s.zones

/-! ### Starts and activations -/

/-- Active trims and shadow after a START: a STEP or ZONE shadow is transferred (R24, R41). -/
def Seq.trimsAtStart (q : Seq) : Nat × Nat × Option Shadow :=
  match q.shadow with
  | some ⟨t, s, .step⟩ | some ⟨t, s, .zone⟩ => (t, s, none)
  | sh => (q.trimT, q.trimS, sh)

/-- Active trims and shadow after the activation of a step with this zone: method STEP transfers at any, method ZONE at a HEAT or DWELL
whose zone differs from the last zone or finds none (R33, R41). -/
def Seq.trimsAt (q : Seq) (zone : Option Nat) : Nat × Nat × Option Shadow :=
  let kept := (q.trimT, q.trimS, q.shadow)
  match q.shadow, zone with
  | some ⟨t, s, .step⟩, _ => (t, s, none)
  | some ⟨t, s, .zone⟩, some z => if q.lastZone = some z then kept else (t, s, none)
  | _, _ => kept

/-- The part after an accepted START from page `page`, or from the link when there is none; `l` is the link after its notices (R24,
R51, R109, R153). -/
def StartedScan (s : State) (part : Tag8) (page : Option Nat) (windows : List Window) (spin : Nat)
    (l : Link) : State :=
  let number := s.zones.numberToTake
  { s with
    seq :=
      { s.seq with
        state := .prestart, turnPhase := .none, queue := [], next := none, active := none,
        source := if page.isSome then .profile else .link,
        segKind := if page.isSome then none else some .stream, segClosed := false,
        programEnd := false, loader := page.map fun p => ⟨p, 0, .running⟩, passDir := none,
        scanStart := s.travel.position, nominal := s.travel.position,
        zoneCount := windows.length, lastZone := none, linkCount := 0, flow := .flowing,
        trimT := s.seq.trimsAtStart.1, trimS := s.seq.trimsAtStart.2.1,
        shadow := s.seq.trimsAtStart.2.2, stepTimer := none,
        prestartTimer := some s.cfg.prestart, scanClock := some 0, spinTaken := false,
        heatSpeed := none }
    travel :=
      { (if s.travel.mode = .disabled then
          { s.travel with
            driveEnable := true, plan := s.travel.position * 1000, planSpeed := 0 }
        else s.travel) with
        mode := .hold, targetSpeed := 0, stopPoint := none, dir := none, finish := .none,
        decision := .none, spindleCommand := spin,
        lowCount := if s.travel.spindleCommand = spin then s.travel.lowCount else 0 }
    power := { s.power with
      enable := true, readySeen := s.power.readySeen || s.inputs.ready, acc := 0 }
    quench := { s.quench with pump := true, idleTimer := none, idleDeferred := false }
    zones := { s.zones with
      nextNumber := if number = 65535 then 1 else number + 1
      openRec := some
        { number := number, part := part, page := page,
          source := if page.isSome then .profile else .link, warn := false,
          zones := windows.map fun w => ⟨w, .start⟩, current := none, lastZone := none,
          ceiling := .none, pOut := 0, powered := false } }
    store := { s.store with inUse := page }
    link := l }

/-- The part after a source step has acted at the queue head and left `kept` in the queue (R36, R38; that the SPLICE notice stands
before GO is log 13). -/
def State.sourced (s : State) (kept : List QStep) : ScanStep → State
  | .splice n =>
    { s with
      seq := { s.seq with
        queue := kept, source := .link, segKind := some .splice, segClosed := false,
        flow := .flowing }
      link := (s.link.placeNotice (.splice n)).placeNotice (.flow true) }
  | .resume =>
    let more : Loader → Bool := fun l => decide (l.index < s.store.stepCount l.page)
    { s with
      seq := { s.seq with
        queue := kept, source := .profile, flow := .flowing
        loader := s.seq.loader.map fun l =>
          { l with state := if more l then .running else .exhausted }
        programEnd := match s.seq.loader with
          | some l => s.seq.programEnd || !more l
          | none => s.seq.programEnd } }
  | .finish => { s with seq := { s.seq with queue := kept, programEnd := true } }
  | _ => s

/-- The step `a` has become Active in RUNNING, handed to the blocks that take it up (R33). Trims are transferred first (R41), the marks
send their notices in order (R12, R32), a turn step sets the pass direction (R3), a HEAT or DWELL the last zone. The Travel Unit
scans at the step's speed or holds (R55, R57), a spin field sets the spindle (R7), the settings of a HEAT or MOVE go to the trails at
the nominal start (R6, R94), a SPRAY takes Q3 (R102), the step timer starts (R34), and Zone Accounting takes the current zone (R155)
with the WARN flag of a present WARN source (R135, R158). -/
def Activated (s t : State) (a : Admitted) : Prop :=
  let dir := if a.turn then a.dir else s.seq.passDir
  let trims := s.seq.trimsAt a.step.zone?
  let speed : Nat := match a.step with
    | .heat _ v _ _ _ _ _ => trimmedSpeed v trims.2.1
    | .move _ v _ _ => v
    | _ => 0
  let heats : Bool := match a.step with | .heat .. => true | _ => false
  let sets : QSetting → QSetting → Prop := fun x y =>
    t.quench = { s.quench with trail := t.quench.trail } ∧
      Asked s.quench t.quench dir .q1 (x.asks (s.quench.lastState .q1)) a.start ∧
      Asked s.quench t.quench dir .q2 (y.asks (s.quench.lastState .q2)) a.start
  t.seq = { s.seq with
      active := some a, next := none, turnPhase := .none, stepTimer := a.step.duration?,
      passDir := dir, lastZone := a.step.zone?.or s.seq.lastZone, trimT := trims.1,
      trimS := trims.2.1, shadow := trims.2.2,
      heatSpeed := if heats then some speed else if a.turn then none else s.seq.heatSpeed } ∧
    t.link = s.link.marked a.marks ∧
    t.travel.position = s.travel.position ∧ t.travel.decision = .none ∧
    t.travel.stopPoint = none ∧
    t.travel.mode = (if a.step.isMotion then .scan else .hold) ∧ t.travel.targetSpeed = speed ∧
    (∀ d, a.step.isMotion = true → a.dir = some d → t.travel.dir = some d) ∧
    t.travel.spindleCommand = a.step.spin?.getD s.travel.spindleCommand ∧
    (match a.step with
      | .heat _ _ _ _ x y _ => sets x y
      | .move _ _ x y => sets x y
      | .spray _ => t.quench = { s.quench with
          circuit := { s.quench.circuit with
            q3 := s.quench.circuit.q3.opened s.cfg.quench .q3 }
          q3Owner := .spray, floodTimer := none }
      | _ => t.quench = s.quench) ∧
    t.zones = { s.zones with
      openRec := s.zones.openRec.map fun r => { r with
        current := a.step.zone?.map fun z => ⟨z, heats⟩
        lastZone := a.step.zone?.or r.lastZone
        zones := if s.presentIn .warn = [] then r.zones
          else r.zones.mapIdx fun i e =>
            if a.step.zone? = some i then { e with acc := { e.acc with warn := true } } else e } } ∧
    Keeps s t [.seq, .travel, .quench, .zones, .link]

/-- The trajectory generator in HOLD (R51). -/
def Travel.held (t : Travel) : Travel :=
  { t with
    mode := .hold, targetSpeed := 0, stopPoint := none, dir := none, finish := .none,
    decision := .none }

/-- The quench state behind the releases of a sample that found this position, measured speed and still count: both trails, and neither
while the stopped condition holds or no pass runs (R99). -/
def State.releasedAt (s : State) (pos v : Int) (still : Nat) : Quench :=
  match s.seq.passDir with
  | some d =>
    if still = 20 then s.quench
    else (s.quench.release s.cfg.quench d pos v .q1).release s.cfg.quench d pos v .q2
  | none => s.quench

/-- The state behind a sample's own part, before its tests, whose measured values are those of `x`: the measured quantities, the sample
counted to the zone current before it (R157, log 8), the releases (R99), and the flags of rings whose watch is LOW behind them
(R107, R159). -/
def State.sampledAt (s : State) (x : Travel) : State :=
  let counted : State := { s with
    travel := { s.travel with
      position := x.position, history := x.history, speed := x.speed, still := x.still,
      rpm := x.rpm }
    quench := s.releasedAt x.position x.speed x.still
    zones := s.zones.onOpen
      (·.sample (s.seq.state == .running) s.power.inhibit s.travel.position x.position) }
  let flagged : Ring → State → State := fun r u =>
    if (u.quench.circuit.get r.circuit).watch = .low then { u with zones := u.shorted r } else u
  flagged .q2 (flagged .q1 counted)

/-- No condition that a position sample tests has become present between the two states (R54, R59, R60, R61). -/
def NoneRaised (s t : State) : Prop :=
  (t.travel.overSoft = true → s.travel.overSoft = true) ∧
    (t.travel.overLow = true → s.travel.overLow = true) ∧
    (t.travel.overHigh = true → s.travel.overHigh = true) ∧
    (t.travel.encoderFault = true → s.travel.encoderFault = true) ∧
    (t.travel.followingError = true → s.travel.followingError = true)

/-- Both trails have a free place. -/
def HasTrailRoom (s : State) : Prop :=
  s.quench.trail.q1.entries.length < 16 ∧ s.quench.trail.q2.entries.length < 16

/-! ### What commands write -/

end Sys2Proof.Machine

namespace Sys2Proof

/-- Commands that can write configuration: CONFIGURE, a dispatched one, RESET (R193). -/
def Instr.configures : Instr → Bool
  | .configureMachine _ _ | .configureQuench _ _ | .configureMeasure _ _ | .configureTrip _ _
  | .configureFlow _ _ | .configurePrestart _ _ | .dispatch | .reset => true
  | _ => false

/-- The four input changes (0.1). -/
def Instr.isInput : Instr → Bool
  | .readyInputChange _ | .faultInputChange _ | .emergencyStopInput _ | .encoderFaultInput _ => true
  | _ => false

/-- Commands that can change pages: PROFILE-OPEN, -DATA, -CLOSE, -ERASE, a dispatched one, RESET (R170). -/
def Instr.writesPages : Instr → Bool
  | .profileOpen _ _ _ _ _ _ | .profileData _ _ _ | .profileClose _ _ | .profileErase _ _
  | .dispatch | .reset => true
  | _ => false

/-- Commands that can change the position: a sample, the end of a homing run, RESET (R48, R62, R67). -/
def Instr.movesPosition : Instr → Bool
  | .positionSample _ _ _ _ _ | .stoppingComplete | .reset => true
  | _ => false

end Sys2Proof

namespace Sys2Proof.Machine

/-- The state after the bytes of a line have been received one by one (R186). -/
def State.fed (s : State) (bytes : List Byte) : State :=
  bytes.foldl (fun t b => match exec (.byteReceived b) t with | .next u => u | _ => t) s

/-- The bytes are this many PROFILE-DATA records, none cut short and none left over: a type byte, an index of 2 bytes, and a window of
9 bytes (type 1) or a step record of 16 (type 2) (R190). -/
def recordsFit : Nat → List Byte → Bool
  | 0, bytes => bytes.isEmpty
  | n + 1, kind :: rest =>
    if kind = 1#8 then decide (11 ≤ rest.length) && recordsFit n (rest.drop 11)
    else if kind = 2#8 then decide (18 ≤ rest.length) && recordsFit n (rest.drop 18)
    else false
  | _ + 1, [] => false

/-! ### Invariants -/

/-- Bounds of the Cell Link: 4 replies, one notice of each kind, 4 requests, 4 BUSY answers, and an IDLE transmitter has nothing to
send (R187, R188, R191). -/
def LinkInv (s : State) : Prop :=
  s.link.replies ≤ 4 ∧ (∀ k, (s.link.out.filter (OutFrame.isNotice k)).length ≤ 1) ∧
    s.link.rxBuffer.length ≤ 4 ∧ s.link.busy.length ≤ 4 ∧
    (s.link.sending = none → s.link.out = [] ∧ s.link.busy = [])

/-- The first entry differs from the valve, each later one from the entry before it (R93). -/
def alternates : Bool → List TrailEntry → Bool
  | _, [] => true
  | v, e :: rest => (e.on != v) && alternates e.on rest

/-- Both trails hold at most 16 entries and alternate from the state of their valve (R93). -/
def TrailInv (s : State) : Prop :=
  ∀ r : Ring, (s.quench.trail.get r).entries.length ≤ 16 ∧
    alternates (s.quench.circuit.get r.circuit).valve (s.quench.trail.get r).entries = true

/-- Trails empty and ring valves CLOSED (R113). -/
def Quench.ringsQuiet (q : Quench) : Prop :=
  q.trailsEmpty = true ∧ q.circuit.q1.valve = false ∧ q.circuit.q2.valve = false

/-- Both trails will leave their circuits OFF (R93, R95). -/
def Quench.endsOff (q : Quench) : Prop := q.lastState .q1 = false ∧ q.lastState .q2 = false

/-- The pass and its trails. Positions are strictly monotone in the pass direction (R93). With no pass the trails are empty and the
rings closed (R46); a pass is there before a motion step is (R3), and a turn leaves it with empty trails (R43, R44). Outside a scan and
its trip there is no pass, and before RUNNING nothing is placed (R26, R46, R111, R144). Run-out and a RUNOUT response end OFF (R95,
R140), the other responses have discarded (R101). A failed append does not outlast the trip it raises (R96). -/
def PassInv (s : State) : Prop :=
  (∀ d, s.seq.passDir = some d → ∀ r : Ring,
      (s.quench.trail.get r).entries.Pairwise fun a b => d.beyond b.pos a.pos = true) ∧
    (s.seq.passDir = none → s.quench.ringsQuiet) ∧
    (s.seq.turnPhase = .stopping ∨ s.seq.turnPhase = .return → s.quench.trailsEmpty = true) ∧
    (∀ a, s.seq.next = some a →
      (a.step.isMotion = true → s.seq.passDir ≠ none) ∧ (a.turn = true → a.dir ≠ none)) ∧
    (s.seq.state ≠ .running → s.seq.state ≠ .runout → s.seq.state ≠ .tripping →
      s.quench.ringsQuiet) ∧
    (s.seq.state ∈ [.unreferenced, .idle, .homing, .positioning, .tripped] →
      s.seq.passDir = none) ∧
    (s.seq.state = .runout → s.quench.endsOff) ∧
    (s.seq.state = .tripping → if s.trip.response = some .runout then
        s.quench.endsOff ∧ (s.trip.trailsSeen = true → s.quench.trailsEmpty = true)
      else s.quench.ringsQuiet) ∧
    s.quench.trailFull = false

/-- The accumulator's clamp (R73), the output within P_rated and its code as sent (R78, R82), output 0 outside RUNNING (R69, R70,
R74), the enable off outside PRESTART and RUNNING (R83). -/
def PowerInv (s : State) : Prop :=
  -12800 ≤ s.power.acc ∧ s.power.acc ≤ 12800 ∧ s.power.pOut ≤ s.cfg.machine.pRated ∧
    s.power.code = setpointCode s.power.pOut s.cfg.machine.pRated ∧
    (s.seq.state ≠ .running → s.power.pOut = 0) ∧
    (s.power.enable = true → s.seq.state = .prestart ∨ s.seq.state = .running)

/-- The Step Queue's capacity, and what is empty or stopped outside PRESTART and RUNNING (R28, R37, R39, R45). -/
def QueueInv (s : State) : Prop :=
  s.seq.queue.length ≤ 32 ∧
    (s.seq.state ≠ .prestart → s.seq.state ≠ .running →
      s.seq.queue = [] ∧ s.seq.next = none ∧ s.seq.source = .none ∧ s.seq.loader = none) ∧
    (s.seq.active.isSome = true → s.seq.state = .running ∧ s.seq.turnPhase = .none) ∧
    (s.seq.turnPhase ≠ .none → s.seq.state = .running) ∧
    (s.seq.stepTimer.isSome = true → s.seq.active.isSome = true) ∧
    (s.seq.flow ≠ .flowing → s.seq.source = .link)

/-- The latch, the record and the response stand together with TRIPPING and TRIPPED (R137, R138, R149). -/
def LatchInv (s : State) : Prop :=
  (s.trip.latch = true ↔ s.seq.state = .tripping ∨ s.seq.state = .tripped) ∧
    (s.trip.record.isSome = s.trip.latch) ∧ (s.trip.response.isSome = s.trip.latch)

/-- A record is open in a scan, and in TRIPPING entered from one (the trip record holds the state it was entered from), and at no
other time; the scan clock runs with it; the list holds at most 8 (R34, R138, R165). -/
def RecordInv (s : State) : Prop :=
  (s.seq.state.isScan = true → s.zones.openRec.isSome = true) ∧
    (s.zones.openRec.isSome = true → s.seq.state.isScan = true ∨ s.seq.state = .tripping) ∧
    (s.seq.state = .tripping → s.zones.openRec.isSome =
      (match s.trip.record with | some r => r.state.isScan | none => false)) ∧
    s.seq.scanClock.isSome = s.zones.openRec.isSome ∧ s.zones.count ≤ 8

/-- The part is referenced in IDLE, POSITIONING, PRESTART, RUNNING and RUNOUT (2.2, R61). -/
def ReferenceInv (s : State) : Prop :=
  s.seq.state = .idle ∨ s.seq.state = .positioning ∨ s.seq.state.isScan = true →
    s.travel.referenced = true

/-- The pages of the store (R170): sizes, owners, alignment, one state for a profile, at most one OPEN profile. -/
abbrev StoreInv (st : Store) : Prop :=
  st.pages.length = 16 ∧
    (∀ i < 16, (st.page i).slots.length = 40 ∧ (st.page i).windows.length = 16) ∧
    st.zoneMarks.length = 16 ∧ st.stepMarks.length = 320 ∧
    (∀ i < 16, ((st.page i).owner = none ↔ (st.page i).state = .free)) ∧
    (∀ i < 16, ∀ p < 16, (st.page i).owner = some p →
      [1, 2, 4, 8].contains (st.header p).size = true ∧ p % (st.header p).size = 0 ∧ p ≤ i ∧
        i < p + (st.header p).size ∧ (st.page i).state = (st.page p).state) ∧
    (∀ p < 16, (st.page p).owner = some p →
      ∀ k < 16, p ≤ k → k < p + (st.header p).size → (st.page k).owner = some p) ∧
    (∀ i < 16, ((st.page i).owner = none ∨
      ((st.page i).owner.getD 0 < 16 ∧
        (st.page ((st.page i).owner.getD 0)).owner = (st.page i).owner))) ∧
    (∀ i < 16, ∀ j < 16, (st.page i).state = .opened → (st.page j).state = .opened →
      (st.page i).owner = (st.page j).owner)

/-- At most one waiting request of each channel and kind, none while the converter is FREE, and only URGENT-class channels owed
(R116, R117, R125). -/
def MeasInv (s : State) : Prop :=
  (s.meas.waiting.map fun w => (w.channel, w.kind)).Nodup ∧
    (s.meas.converter = none → s.meas.waiting = []) ∧ ∀ c ∈ s.meas.owed, c.cls = .urgent

end Sys2Proof.Machine
end

