-- ==== Sys2Proof/WellFormed.lean ====
section
/-! DEFINITION. Which commands can exist: every operand fits the field the link or the machine line gives it (R184, R185,
R190, R197, R48, R65, R114). A value the part itself judges (a speed out of range, a bad window kind) is not judged here:
the part answers INVALID, and that is a meaning. -/

namespace Sys2Proof

/-- Fits an unsigned field of `n` bytes. -/
def fitsU (n : Nat) (x : Nat) : Bool := x < 256 ^ n

/-- Fits the signed 4-byte field of the link (R184: two's complement). -/
def fitsS4 (x : Int) : Bool := decide (-2147483648 ≤ x) && decide (x < 2147483648)

/-- A tag of a request is 1..255 (R185). -/
def Tag.wf (t : Byte) : Bool := t != 0

def StepRecord.wf (r : StepRecord) : Bool :=
  fitsU 1 r.kind && fitsU 1 r.zone && fitsU 1 r.quench && fitsU 1 r.number && fitsS4 r.endPos &&
    fitsU 2 r.speed && fitsU 2 r.spin && fitsU 4 r.last

def WindowRecord.wf (w : WindowRecord) : Bool := fitsU 1 w.kind && fitsU 4 w.low && fitsU 4 w.high

def DataRecord.wf : DataRecord → Bool
  | .zone i w => fitsU 2 i && w.wf
  | .step i r => fitsU 2 i && r.wf

/-- Bytes of a record on the link: type, index, then window or step (R190). -/
def DataRecord.bytes : DataRecord → Nat
  | .zone _ _ => 12
  | .step _ _ => 19

/-- `n` items, each a 4-byte signed value (R193). -/
def itemsWf (n : Nat) (xs : List Int) : Bool := xs.length == n && xs.all fitsS4

/-- A request that a frame can carry: fields fit, counts agree, and the body is at most 640 bytes (R185, R190). -/
def Request.wf : Request → Bool
  | .configureMachine xs => itemsWf 13 xs
  | .configureQuench xs => itemsWf 13 xs
  | .configureMeasure xs => itemsWf 49 xs
  | .configureTrip xs => itemsWf 25 xs
  | .configureFlow xs => itemsWf 2 xs
  | .configurePrestart xs => itemsWf 1 xs
  | .moveTo p v => fitsS4 p && fitsU 2 v
  | .startProfile p _ => fitsU 1 p
  | .startStream _ ws => decide (ws.length ≤ 69) && ws.all WindowRecord.wf
  | .step r => r.wf
  | .trim t s m => fitsU 2 t && fitsU 2 s && fitsU 1 m
  | .profileOpen p z n k _ => fitsU 1 p && fitsU 1 z && fitsU 1 n && fitsU 2 k
  | .profileData p rs =>
    fitsU 1 p && decide ((rs.map DataRecord.bytes).sum ≤ 636) && rs.all DataRecord.wf
  | .profileClose p => fitsU 1 p
  | .profileErase p => fitsU 1 p
  | .recordGet n => fitsU 2 n
  | .recordRelease n => fitsU 2 n
  | .status | .restart | .home | .stop | .inhibitOn | .inhibitOff | .forceTrip | .clearTrip
  | .profileList => true

/-- A command that can come: a request fits its frame and has a tag of 1..255; a count of the encoder fits 32 bits (R48), the
tachometer reads 0..1,000 (R65), a conversion code is 0..65,535 (R114). -/
def Instr.wf (i : Instr) : Bool :=
  match i.request with
  | some (t, r) => Tag.wf t && r.wf
  | none =>
    match i with
    | .positionSample d rpm _ _ _ => fitsS4 d && decide (rpm ≤ 1000)
    | .conversionComplete c => fitsU 2 c
    | _ => true

end Sys2Proof
end

