-- ==== Sys2Proof/Certificates/Slice0/Obligations.lean ====
section
/-! DEFINITION. Statements about the HS420, for the provers: one `def Obligations.<Name> : Prop` for each entry of OBLIGATIONS.json.
Commands of one shape stand together. A statement about an exact next state names all that changes; elsewhere `Keeps` names the
blocks that may. -/

open Sys2Proof Sys2Proof.Machine

/-! ### The machine as a whole -/

/-- The command at the front of the queue runs on the rest of the state; an empty queue idles (the model's own queue: log 1, log 2). -/
def Obligations.StepTakesFrontCommand : Prop :=
  (∀ (c : Instr) (s : State), step { s with pending := c :: s.pending } = exec c s) ∧
    ∀ s : State, s.pending = [] → step s = .next s

/-- No command is refused or faults, in any state (one that is not due still answers: log 2), and none, RESET included, touches the
waiting commands (the model's own queue: logs 2 and 11). Configuration is written by CONFIGURE and RESET, input levels by the
input changes alone (that RESET leaves them is log 10), pages by the store's requests and RESET, the position by a sample, the end
of homing and RESET (R48, R62, R170, R193). -/
def Obligations.EveryCommandCompletes : Prop :=
  (∀ (c : Instr) (s : State), ∃ t, exec c s = .next t ∧ t.pending = s.pending) ∧
  (∀ (c : Instr) (s t : State), exec c s = .next t →
     (c.configures = false → t.cfg = s.cfg) ∧ (c.isInput = false → t.inputs = s.inputs) ∧
       (c.writesPages = false → t.store.pages = s.store.pages ∧
         t.store.zoneMarks = s.store.zoneMarks ∧ t.store.stepMarks = s.store.stepMarks) ∧
       (c.movesPosition = false → t.travel.position = s.travel.position))

/-- RESET's values, and the invariants at them (R47, R67, R91, R113, R129, R152, R169, R183, R196). -/
def Obligations.ResetMeetsInvariants : Prop :=
  LinkInv State.reset ∧ TrailInv State.reset ∧ PowerInv State.reset ∧ QueueInv State.reset ∧
    LatchInv State.reset ∧ RecordInv State.reset ∧ ReferenceInv State.reset ∧ PassInv State.reset ∧
    StoreInv State.reset.store ∧ MeasInv State.reset ∧ State.reset.zones.numbers.Nodup

/-! ### Invariants every step keeps -/

/-- R187, R188, R191. -/
def Obligations.LinkBoundsKept : Prop := ∀ s t : State, LinkInv s → step s = .next t → LinkInv t

/-- R93. -/
def Obligations.TrailsAlternate : Prop := ∀ s t : State, TrailInv s → step s = .next t → TrailInv t

/-- R93, R94, R95: the trails' positions stay strictly monotone in the pass direction, with all that this rests on: when there is a
pass, that a turn and a run-out leave trails empty, and what each response leaves (R43, R44, R45, R46, R96, R101, R140, R144). -/
def Obligations.TrailsMonotoneInPass : Prop :=
  ∀ s t : State, QueueInv s → LatchInv s → TrailInv s → PassInv s → step s = .next t → PassInv t

/-- R69, R73, R78, R82, R83. -/
def Obligations.PowerBoundsKept : Prop := ∀ s t : State, PowerInv s → step s = .next t → PowerInv t

/-- R28, R37, R39, R45. -/
def Obligations.QueueBoundsKept : Prop := ∀ s t : State, QueueInv s → step s = .next t → QueueInv t

/-- R137, R149: the latch stands exactly in TRIPPING and TRIPPED. -/
def Obligations.LatchStandsWithTripStates : Prop :=
  ∀ s t : State, QueueInv s → LatchInv s → step s = .next t → LatchInv t

/-- R34, R138, R165: a record is open exactly in a scan and in TRIPPING entered from one, by the state in the trip record. -/
def Obligations.RecordOpenInScans : Prop :=
  ∀ s t : State, QueueInv s → LatchInv s → RecordInv s → step s = .next t → RecordInv t

/-- R153, R165: the records of the list carry distinct numbers. -/
def Obligations.RecordNumbersDistinct : Prop :=
  ∀ s t : State, s.zones.numbers.Nodup → step s = .next t → t.zones.numbers.Nodup

/-- R61: no POSITIONING, scan or IDLE without a reference. -/
def Obligations.ReferencedWhileWorking : Prop :=
  ∀ s t : State, QueueInv s → LatchInv s → ReferenceInv s → step s = .next t → ReferenceInv t

/-- R170: pages, owners, alignment, one OPEN profile. -/
def Obligations.StorePagesKeepShape : Prop :=
  ∀ s t : State, StoreInv s.store → step s = .next t → StoreInv t.store

/-- R116, R117, R125: one waiting request of each channel and kind, none beside a FREE converter, URGENT channels alone owed. -/
def Obligations.ArbiterInvariantKept : Prop := ∀ s t : State, MeasInv s → step s = .next t → MeasInv t

/-- R157: while a record stays open no zone's energy or heated length decreases, and its zones stay the same in number. -/
def Obligations.ZoneTotalsNeverDecrease : Prop :=
  ∀ (s t : State) (r r' : OpenRecord), RecordInv s → step s = .next t → s.zones.openRec = some r →
    t.zones.openRec = some r' →
    r'.number = r.number → r'.zones.length = r.zones.length ∧
      ∀ (i : Nat) (e e' : ZoneEntry), r.zones[i]? = some e → r'.zones[i]? = some e' →
        e.acc.energy ≤ e'.acc.energy ∧ e.acc.length ≤ e'.acc.length

/-! ### The Cell Link -/

/-- Kind tables and layouts of 10.8: what a request's payload is written as is what it is read as, for every request a frame can
carry (R190, R193, R197). -/
def Obligations.RequestsDecodeEncode : Prop :=
  ∀ r : Request, r.wf = true → readRequest r.kindByte r.payload = some (some r)

/-- A frame whose bytes come in one by one on a searching receiver is found good and arrives whole (R185, R186, R187). -/
def Obligations.FramesAreReceived : Prop :=
  ∀ (kind tag : Byte) (payload : List Byte) (s : State), payload.length ≤ 638 →
    s.link.rxBytes = [] →
    exec .frameReceived (s.fed (frameBytes kind tag payload)) =
      .next { s with link := s.link.arrive ⟨kind, tag, payload⟩ }

/-- The receiver: bytes other than 0xA5 are dropped while SEARCHING, a byte joins a partial frame whose length is in range or not yet
known, a damaged frame restarts the search behind its start byte, a gap drops a partial frame (R186; that a whole frame stays is log
18). -/
def Obligations.ReceiverSearches : Prop :=
  ∀ (s : State) (b : Byte),
    (s.link.rxBytes = [] → b ≠ 0xA5#8 → exec (.byteReceived b) s = .next s) ∧
    (s.link.rxBytes = [] → b = 0xA5#8 →
      exec (.byteReceived b) s = .next { s with link := { s.link with rxBytes := [b] } }) ∧
    (∀ a : Byte, s.link.rxBytes = [0xA5#8, a] → 2 ≤ u16 a b → u16 a b ≤ 640 →
      exec (.byteReceived b) s = .next { s with link := { s.link with rxBytes := [0xA5#8, a, b] } }) ∧
    (s.link.rxBytes = [0xA5#8, 0#8] → b = 0#8 →
      exec (.byteReceived b) s = .next { s with link := { s.link with rxBytes := [] } }) ∧
    (∀ rest, s.link.rxBytes = 0xA5#8 :: rest → holdsFrame s.link.rxBytes = true →
      checkedRequest s.link.rxBytes = none →
      exec .frameReceived s = .next { s with link := { s.link with rxBytes := hunt rest } }) ∧
    (holdsFrame s.link.rxBytes = false → exec .frameReceived s = .next s) ∧
    (holdsFrame s.link.rxBytes = false →
      exec .receiveGapTimeout s = .next { s with link := { s.link with rxBytes := [] } }) ∧
    (holdsFrame s.link.rxBytes = true → exec .receiveGapTimeout s = .next s)

/-- A request that the link cannot take at once waits, is owed a BUSY answer, or is dropped; tag 0 is discarded (R187; log 6: a request
command is the arrival of its frame). -/
def Obligations.RequestsWaitTheirTurn : Prop :=
  ∀ (c : Instr) (tag : Byte) (r : Request) (s : State), c.request = some (tag, r) →
    (tag = 0#8 → exec c s = .next s) ∧
    (tag ≠ 0#8 → s.takesAtOnce = false → s.link.rxBuffer.length < 4 →
      exec c s = .next { s with
        link := { s.link with rxBuffer := s.link.rxBuffer ++ [⟨r.kindByte, tag, r.payload⟩] } }) ∧
    (tag ≠ 0#8 → s.link.rxBuffer.length = 4 → s.link.busy.length < 4 →
      s.link.sending.isSome = true →
      exec c s = .next { s with
        link := { s.link with busy := s.link.busy ++ [⟨r.kindByte, tag⟩] } }) ∧
    (tag ≠ 0#8 → s.link.rxBuffer.length = 4 → s.link.busy.length = 4 → exec c s = .next s)

/-- DISPATCH serves a waiting request exactly as the command itself would be served, alone or with others behind it, answers a kind
outside the table BAD_KIND and a payload of the wrong length BAD_LENGTH, for the fixed lengths of 10.8 and for CONFIGURE,
START-STREAM and PROFILE-DATA by their content, and waits while 4 replies wait (R188, R190, R193). -/
def Obligations.DispatchServesOldest : Prop :=
  (∀ (c : Instr) (tag : Byte) (r : Request) (s : State), c.request = some (tag, r) → tag ≠ 0#8 →
    r.wf = true → s.link.rxBuffer = [⟨r.kindByte, tag, r.payload⟩] → s.link.replies < 4 →
    exec .dispatch s = exec c { s with link := { s.link with rxBuffer := [] } }) ∧
  (∀ (s : State) (r : RawRequest) (rest : List RawRequest), s.link.rxBuffer = r :: rest →
    s.link.replies < 4 →
    (r.kind.toNat = 0 ∨ (0x0E ≤ r.kind.toNat ∧ r.kind.toNat ≤ 0x0F) ∨
      (0x15 ≤ r.kind.toNat ∧ r.kind.toNat ≤ 0x17) ∨ 0x1A ≤ r.kind.toNat →
      exec .dispatch s = .next { s with
        link := { s.link with rxBuffer := rest }.placeReply
          ⟨replyKind r.kind, r.tag, .badKind, []⟩ }) ∧
    (((∃ n, (r.kind.toNat, n) ∈ [(0x01, 0), (0x03, 0), (0x04, 0), (0x05, 6), (0x06, 0), (0x07, 9),
          (0x09, 16), (0x0A, 5), (0x0B, 1), (0x0C, 0), (0x0D, 0), (0x10, 13), (0x12, 1), (0x13, 1),
          (0x14, 0), (0x18, 2), (0x19, 2)] ∧ r.payload.length ≠ n) ∨
        (r.kind.toNat = 0x02 ∧ ∀ group items, r.payload = group :: items →
          (group.toNat, items.length) ∉
            [(1, 52), (2, 52), (3, 196), (4, 100), (5, 8), (6, 4)]) ∨
        (r.kind.toNat = 0x08 ∧
          r.payload.length ≠ 9 + 9 * (r.payload.getD 8 0#8).toNat) ∨
        (r.kind.toNat = 0x11 ∧ ∀ page count records, r.payload = page :: count :: records →
          recordsFit count.toNat records = false)) →
      exec .dispatch s = .next { s with
        link := { s.link with rxBuffer := rest }.placeReply
          ⟨replyKind r.kind, r.tag, .badLength, []⟩ })) ∧
  (∀ (c : Instr) (tag : Byte) (r : Request), c.request = some (tag, r) →
    (∀ s : State, Taken s tag → exec c s = .next (s.serve tag r)) ∧
    ∀ (s : State) (rest : List RawRequest), r.wf = true →
      s.link.rxBuffer = ⟨r.kindByte, tag, r.payload⟩ :: rest → s.link.replies < 4 →
      exec .dispatch s =
        .next ({ s with link := { s.link with rxBuffer := rest } }.serve tag r)) ∧
  (∀ s : State, s.link.rxBuffer = [] ∨ 4 ≤ s.link.replies → exec .dispatch s = .next s)

/-- When a frame has been sent the oldest BUSY answer goes out next, else the head of the output queue; a notice replaces a waiting one
of its kind; a reply joins the tail (R187, R188, R189, R191). -/
def Obligations.TransmitterOrder : Prop :=
  (∀ s : State, s.link.sending = none → exec .frameSent s = .next s) ∧
  (∀ s : State, s.link.sending.isSome = true →
    (∀ b rest, s.link.busy = b :: rest →
      exec .frameSent s = .next { s with
        link := { s.link with
          busy := rest, sending := some (.reply ⟨replyKind b.kind, b.tag, .busy, []⟩) } }) ∧
    (∀ f rest, s.link.busy = [] → s.link.out = f :: rest →
      exec .frameSent s = .next { s with
        link := { s.link with out := rest, sending := some f } }) ∧
    (s.link.busy = [] → s.link.out = [] →
      exec .frameSent s = .next { s with link := { s.link with sending := none } })) ∧
  (∀ (l : Link) (n : Notice) (r : Reply), l.sending.isSome = true →
    l.placeNotice n =
      { l with out := (l.out.filter fun f => f.isNotice n.kind = false) ++ [.notice n] } ∧
    l.placeReply r = { l with out := l.out ++ [.reply r] })

/-! ### STATUS and CONFIGURE -/

/-- STATUS is answered OK with 54 payload bytes and changes nothing else (R194). -/
def Obligations.StatusReplies : Prop :=
  ∀ (tag : Byte) (s : State), Taken s tag →
    exec (.status tag) s = .next (s.replied 0x81#8 tag .ok s.statusPayload) ∧
    s.statusPayload.length = 54 ∧
    s.statusPayload.take 3 =
      [byteOf s.seq.state.code, (match s.seq.lastEnd with | some c => byteOf c.code | none => 0#8),
        if s.travel.referenced then 1#8 else 0#8] ∧
    (s.statusPayload.drop 3).take 10 =
      beS4 s.travel.position ++ beS4 s.travel.speed ++ be2 s.power.pOut

/-- CONFIGURE MACHINE in IDLE and UNREFERENCED: every item in its range and soft low below soft high replaces the group, anything
else is INVALID and changes nothing (R66, R90, R193). CONFIGURE QUENCH, FLOW, PRESTART and MEASURE in IDLE and UNREFERENCED, in the
same way; an accepted MEASURE group restarts every request timer and the calibration timer, nothing else of the block (R26, R39,
R111, R128, R193, R198). -/
def Obligations.ConfigurePlainGroups : Prop :=
  (∀ (tag : Byte) (s : State) (a kp fe lo hi hs hk ref rs ds pr fl rl : Int), Taken s tag →
     s.seq.state.isRest = true →
     let good := 10 ≤ a ∧ a ≤ 2000 ∧ 1 ≤ kp ∧ kp ≤ 500 ∧ 100 ≤ fe ∧ fe ≤ 20000 ∧ -100000 ≤ lo ∧
       lo ≤ 2500000 ∧ -100000 ≤ hi ∧ hi ≤ 2500000 ∧ 100 ≤ hs ∧ hs ≤ 30000 ∧ 10000 ≤ hk ∧
       hk ≤ 2600000 ∧ -100000 ≤ ref ∧ ref ≤ 2500000 ∧ 100 ≤ rs ∧ rs ≤ 30000 ∧ 100 ≤ ds ∧
       ds ≤ 30000 ∧ 100 ≤ pr ∧ pr ≤ 6000 ∧ 0 ≤ fl ∧ fl ≤ 200 ∧ 1 ≤ rl ∧ rl ≤ 6000 ∧ lo < hi
     let c : Instr := .configureMachine tag [a, kp, fe, lo, hi, hs, hk, ref, rs, ds, pr, fl, rl]
     (good → exec c s = .next { s with
         cfg := { s.cfg with
           machine :=
             { accel := a.toNat, kp := kp.toNat, feLimit := fe.toNat, softLow := lo, softHigh := hi,
               homingSpeed := hs.toNat, homingStroke := hk.toNat, reference := ref,
               returnSpeed := rs.toNat, drainSpeed := ds.toNat, pRated := pr.toNat,
               floorShare := fl.toNat, rampLimit := rl.toNat } }
         link := s.link.placeReply ⟨0x82#8, tag, .ok, []⟩ }) ∧
     (¬good → exec c s = .next (s.replied 0x82#8 tag .invalid []))) ∧
  ((∀ (tag : Byte) (s : State) (o1 o2 l1 l2 f1 f2 f3 pv dr fl on off idle : Int), Taken s tag →
     s.seq.state.isRest = true →
     let good := 0 ≤ o1 ∧ o1 ≤ 300000 ∧ 0 ≤ o2 ∧ o2 ≤ 300000 ∧ 0 ≤ l1 ∧ l1 ≤ 500 ∧ 0 ≤ l2 ∧
       l2 ≤ 500 ∧ 0 ≤ f1 ∧ f1 ≤ 5000 ∧ 0 ≤ f2 ∧ f2 ≤ 5000 ∧ 0 ≤ f3 ∧ f3 ≤ 5000 ∧ 50 ≤ pv ∧
       pv ≤ 2000 ∧ 10 ≤ dr ∧ dr ≤ 1000 ∧ 5 ≤ fl ∧ fl ≤ 600 ∧ 1 ≤ on ∧ on ≤ 2000 ∧ 0 ≤ off ∧
       off ≤ 1999 ∧ 0 ≤ idle ∧ idle ≤ 3600 ∧ off < on
     let c : Instr := .configureQuench tag [o1, o2, l1, l2, f1, f2, f3, pv, dr, fl, on, off, idle]
     (good → exec c s = .next { s with
         cfg := { s.cfg with
           quench :=
             { offset := ⟨o1.toNat, o2.toNat⟩, lead := ⟨l1.toNat, l2.toNat⟩,
               flowMin := ⟨f1.toNat, f2.toNat, f3.toNat⟩, proving := pv.toNat,
               dropout := dr.toNat, flood := fl.toNat, onThreshold := on.toNat,
               offThreshold := off.toNat, pumpIdle := idle.toNat } }
         link := s.link.placeReply ⟨0x82#8, tag, .ok, []⟩ }) ∧
     (¬good → exec c s = .next (s.replied 0x82#8 tag .invalid []))) ∧
   ∀ (tag : Byte) (s : State) (lo hi x : Int), Taken s tag → s.seq.state.isRest = true →
     (1 ≤ lo ∧ lo ≤ 30 ∧ 2 ≤ hi ∧ hi ≤ 31 ∧ lo < hi →
       exec (.configureFlow tag [lo, hi]) s = .next { s with
         cfg := { s.cfg with flow := ⟨lo.toNat, hi.toNat⟩ }
         link := s.link.placeReply ⟨0x82#8, tag, .ok, []⟩ }) ∧
     (¬(1 ≤ lo ∧ lo ≤ 30 ∧ 2 ≤ hi ∧ hi ≤ 31 ∧ lo < hi) →
       exec (.configureFlow tag [lo, hi]) s = .next (s.replied 0x82#8 tag .invalid [])) ∧
     (1 ≤ x ∧ x ≤ 60 →
       exec (.configurePrestart tag [x]) s = .next { s with
         cfg := { s.cfg with prestart := x.toNat }
         link := s.link.placeReply ⟨0x82#8, tag, .ok, []⟩ }) ∧
     (¬(1 ≤ x ∧ x ≤ 60) →
       exec (.configurePrestart tag [x]) s = .next (s.replied 0x82#8 tag .invalid []))) ∧
  (∀ (tag : Byte) (s : State) (xs : List Int), Taken s tag → s.seq.state.isRest = true →
     xs.length = 49 →
     let x : Nat → Int := fun i => xs.getD i 0
     let good := (∀ c : Channel, 1 ≤ x c.num ∧ x c.num ≤ 1000 ∧
         x (9 + c.num) ∈ [(1 : Int), 2, 4, 8, 16] ∧ 1 ≤ x (18 + c.num) ∧
         x (18 + c.num) ≤ 100000 ∧ 1 ≤ x (27 + c.num) ∧ x (27 + c.num) ≤ 3 ∧
         (c = .coilI ∨ c = .invP → x (27 + c.num) ≠ 2) ∧ -32768 ≤ x (36 + c.num) ∧
         x (36 + c.num) ≤ 32767) ∧
       1 ≤ x 45 ∧ x 45 ≤ 254 ∧ 1 ≤ x 46 ∧ x 46 ≤ 15 ∧ 100 ≤ x 47 ∧ x 47 ≤ 5000 ∧ 1 ≤ x 48 ∧
       x 48 ≤ 2
     let group : MeasureCfg :=
       { chan := .ofFn fun c =>
           { period := (x c.num).toNat, burst := (x (9 + c.num)).toNat,
             scale := (x (18 + c.num)).toNat,
             mode := if x (27 + c.num) = 1 then .hold
               else if x (27 + c.num) = 2 then .substitute else .fault,
             substitute := x (36 + c.num) }
         stale := (x 45).toNat, relax := (x 46).toNat, calPeriod := (x 47).toNat,
         calMode := if x 48 = 1 then .rotate else .all }
     (good → exec (.configureMeasure tag xs) s = .next { s with
         cfg := { s.cfg with measure := group }
         meas := { s.meas with
           chan := .ofFn fun c => { s.meas.chan.get c with timer := (x c.num).toNat }
           calTimer := (x 47).toNat }
         link := s.link.placeReply ⟨0x82#8, tag, .ok, []⟩ }) ∧
     (¬good → exec (.configureMeasure tag xs) s = .next (s.replied 0x82#8 tag .invalid [])))

/-- CONFIGURE TRIP: which groups are legal, by the classes of R131, the three responses and the ranges of R150; a legal group
replaces the old one; with no present source newly classed TRIP that is all, and with one the part latches at once, the lowest code
first, the others as later causes, and stands in TRIPPED (R150, R151, R193; that STATE stands before RECORD is log 13). CONFIGURE
outside IDLE and UNREFERENCED is refused with STATE, for every group, and changes nothing (R193). -/
def Obligations.ConfigureTripOrRefused : Prop :=
  (∀ (tag : Byte) (s : State) (xs : List Int) (c : TripCfg), Taken s tag →
     s.seq.state.isRest = true → tripCfgOf xs = some c →
     let newly : Source → Prop := fun src =>
       s.present src = true ∧ c.classOf src = .trip ∧ s.cfg.trip.classOf src ≠ .trip
     ((∀ src, ¬newly src) → exec (.configureTrip tag xs) s = .next { s with
         cfg := { s.cfg with trip := c }
         link := s.link.placeReply ⟨0x82#8, tag, .ok, []⟩ }) ∧
     (s.trip.latch = false → (∃ src, newly src) →
       ∃ t r, exec (.configureTrip tag xs) s = .next t ∧ t.trip.record = some r ∧
         Latched { s with
           cfg := { s.cfg with trip := c }
           link := s.link.placeReply ⟨0x82#8, tag, .ok, []⟩ } t r.cause r.channel ∧
         t.seq.state = .tripped ∧ newly r.cause ∧
         (∀ src, newly src → r.cause.code ≤ src.code ∧ (src = r.cause ∨ src ∈ r.later)) ∧
         (∀ src ∈ r.later, newly src) ∧
         r.channel = (if r.cause = .sensorFault then
           Channel.all.find? fun ch => (s.meas.chan.get ch).sensorFault else none))) ∧
  (∀ (tag : Byte) (s : State) (xs : List Int), Taken s tag → s.seq.state.isRest = true →
     xs.length = 25 →
     let x : Nat → Int := fun i => xs.getD i 0
     let good := (x 0 = 2 ∨ x 0 = 3) ∧ (1 ≤ x 1 ∧ x 1 ≤ 3) ∧
       (∀ i ∈ [2, 3, 4, 5, 6], x i = 1 ∨ x i = 3) ∧ (∀ i, 7 ≤ i → i ≤ 18 → 1 ≤ x i ∧ x i ≤ 3) ∧
       10 ≤ x 19 ∧ x 19 ≤ 100 ∧ 10 ≤ x 20 ∧ x 20 ≤ 100 ∧ 10 ≤ x 21 ∧ x 21 ≤ 6000 ∧
       100 ≤ x 22 ∧ x 22 ≤ 1500 ∧ 0 ≤ x 23 ∧ x 23 ≤ 5000 ∧ 5 ≤ x 24 ∧ x 24 ≤ 120
     let cls : Nat → SourceClass := fun i =>
       if x i = 1 then .warn else if x i = 2 then .limit else .trip
     let resp : Nat → Response := fun i =>
       if x i = 1 then .runout else if x i = 2 then .stop else .stopFlood
     (good → tripCfgOf xs = some
       { classCoilOver := cls 0, classPyro := cls 1, classFlow := ⟨cls 2, cls 3, cls 4⟩,
         classQTemp := cls 5, classSensor := cls 6, respCoilOver := resp 7, respPyro := resp 8,
         respInvFault := resp 9, respInvLost := resp 10, respCoilWater := resp 11,
         respFlow := ⟨resp 12, resp 13, resp 14⟩, respQTemp := resp 15, respSpindle := resp 16,
         respSensor := resp 17, respForced := resp 18, capCoilOver := (x 19).toNat,
         capPyro := (x 20).toNat, iMax := (x 21).toNat, tMax := (x 22).toNat,
         waterMin := (x 23).toNat, qTempLimit := (x 24).toNat }) ∧
     (¬good → exec (.configureTrip tag xs) s = .next (s.replied 0x82#8 tag .invalid []))) ∧
  (∀ (c : Instr) (tag : Byte) (r : Request) (s : State), c.request = some (tag, r) →
     r.kindByte = 0x02#8 → r.wf = true → Taken s tag → s.seq.state.isRest = false →
     exec c s = .next (s.replied 0x82#8 tag .state []))

/-! ### Homing, positioning, stopping -/

/-- HOME clears the reference and starts the homing run from IDLE and UNREFERENCED, and is refused elsewhere (R21, R51, R62).
MOVE-TO: NOT_HOMED, STATE, INVALID in this order, else TARGET toward the position at the speed (R22, R51, R63). -/
def Obligations.HomeAndMoveToBegin : Prop :=
  (∀ (tag : Byte) (s : State), Taken s tag →
     (s.seq.state = .idle ∨ s.seq.state = .unreferenced →
       exec (.home tag) s = .next { s with
         seq := { s.seq with state := .homing, stopTaken := false }
         travel :=
           { (if s.travel.mode = .disabled then
               { s.travel with
                 driveEnable := true, plan := s.travel.position * 1000, planSpeed := 0 }
             else s.travel) with
             mode := .seek, targetSpeed := s.cfg.machine.homingSpeed, stopPoint := none,
             dir := some .reverse, finish := .none, decision := .none,
             homingStart := some s.travel.position, switchFound := false, referenced := false }
         link := (s.link.placeReply ⟨0x84#8, tag, .ok, []⟩).stated .homing .home }) ∧
     (s.seq.state ≠ .idle → s.seq.state ≠ .unreferenced →
       exec (.home tag) s = .next (s.replied 0x84#8 tag .state []))) ∧
  (∀ (tag : Byte) (s : State) (p : Int) (v : Nat), Taken s tag →
     let good := 100 ≤ v ∧ v ≤ 30000 ∧ s.cfg.machine.softLow ≤ p ∧ p ≤ s.cfg.machine.softHigh
     (s.seq.state = .unreferenced →
       exec (.moveTo tag p v) s = .next (s.replied 0x85#8 tag .notHomed [])) ∧
     (s.seq.state ≠ .unreferenced → s.seq.state ≠ .idle →
       exec (.moveTo tag p v) s = .next (s.replied 0x85#8 tag .state [])) ∧
     (s.seq.state = .idle → ¬good →
       exec (.moveTo tag p v) s = .next (s.replied 0x85#8 tag .invalid [])) ∧
     (s.seq.state = .idle → good →
       exec (.moveTo tag p v) s = .next { s with
         seq := { s.seq with state := .positioning, stopTaken := false }
         travel :=
           { (if s.travel.mode = .disabled then
               { s.travel with
                 driveEnable := true, plan := s.travel.position * 1000, planSpeed := 0 }
             else s.travel) with
             mode := .target, targetSpeed := v, stopPoint := some p,
             dir := (if s.travel.position < p then some .forward
               else if p < s.travel.position then some .reverse else none),
             finish := .none, decision := .none, arrivalSeen := false }
         link := (s.link.placeReply ⟨0x85#8, tag, .ok, []⟩).stated .positioning .moveTo }))

/-- STOP and the timer's expiry in PRESTART end the scan by the exit to IDLE, each with its cause; an expiry that finds no running
timer changes nothing (R26, R27; that STATE stands before RECORD is log 13). -/
def Obligations.PrestartExits : Prop :=
  ∀ s : State, QueueInv s →
    (s.seq.state = .prestart → s.zones.openRec.isSome = true →
      (s.seq.prestartTimer.isSome = true →
        ∃ t, exec .prestartTimeout s = .next t ∧ LeftPrestart s t .prestartTimeout s.link) ∧
      ∀ tag, Taken s tag →
        ∃ t, exec (.stop tag) s = .next t ∧
          LeftPrestart s t .stopped (s.link.placeReply ⟨0x86#8, tag, .ok, []⟩)) ∧
    (s.seq.state ≠ .prestart ∨ s.seq.prestartTimer = none → exec .prestartTimeout s = .next s)

/-- STOP in RUNNING enters RUNOUT from the present motion, in every turn phase, with the OFF entries at the present position (R27,
R45, R46, R95; that STATE stands before RECORD in a run-out complete at once is log 13). A trail that has no room for its OFF entry
trips, and raised in RUNOUT the trip takes STOP_FLOOD (R96, R137, R142; behind both requests: log 23, a carriage found stopped: log 28). STOP in HOMING and
POSITIONING decelerates the carriage, twice as well as once; in the other states it is refused (R27, R62, R63). -/
def Obligations.StopByState : Prop :=
  (∀ (tag : Byte) (s : State), Taken s tag → s.seq.state = .running → TrailInv s → HasTrailRoom s →
     ∃ t, exec (.stop tag) s = .next t ∧
       EnteredRunout { s with link := s.link.placeReply ⟨0x86#8, tag, .ok, []⟩ } t .stopped none) ∧
  (∀ (tag : Byte) (s : State) (r : Ring) (d : Dir) (e : TrailEntry), Taken s tag →
     s.seq.state = .running → s.trip.latch = false → s.seq.passDir = some d →
     s.quench.trailFull = false → (s.quench.trail.get r).entries.length = 16 →
     (s.quench.trail.get r).entries.getLast? = some e → e.on = true →
     d.beyond s.travel.position e.pos = true →
     let u : State := { s with
       seq := { s.seq with
         state := .runout, turnPhase := .none, queue := [], next := none, active := none,
         source := .none, flow := .flowing, loader := none, stepTimer := none,
         prestartTimer := none, lastEnd := some .stopped }
       power := s.power.off, quench := s.unsprayed
       link := (((s.link.placeReply ⟨0x86#8, tag, .ok, []⟩).stated .runout
         (.scanEnd .stopped)).marked (headMarks s.seq.queue)) }
     ∃ t, exec (.stop tag) s = .next t ∧ Latched u t .trailFull none ∧
       Responds u t .stopFlood) ∧
  (∀ (tag : Byte) (s : State), Taken s tag →
     (s.seq.state = .homing ∨ s.seq.state = .positioning → s.travel.mode ≠ .disabled →
       exec (.stop tag) s = .next { s with
         seq := { s.seq with stopTaken := true }
         travel := { s.travel with
           mode := .stopping, targetSpeed := 0, stopPoint := none, dir := none, finish := .none,
           decision := .none, switchFound := false }
         link := s.link.placeReply ⟨0x86#8, tag, .ok, []⟩ }) ∧
     (s.seq.state ∈ [.unreferenced, .idle, .runout, .tripping, .tripped] →
       exec (.stop tag) s = .next (s.replied 0x86#8 tag .state [])))

/-! ### Starting a scan, STEP and TRIM -/

/-- An accepted START-PROFILE and START-STREAM (R23, R24): every block as `StartedScan` says, the reply with the record number, the
STATE notice, and GO for a stream (that GO stands behind STATE is log 13; that START-PROFILE leaves the kind of the link segment
absent is log 12). -/
def Obligations.StartsTakeEffect : Prop :=
  ∀ (tag : Byte) (s : State) (part : Tag8), Taken s tag → s.seq.state = .idle → s.zones.count < 8 →
    (∀ page : Nat, page < 16 → (s.store.page page).state = .written →
      (s.store.page page).owner = some page →
      exec (.startProfile tag page part) s = .next (StartedScan s part (some page)
        (s.store.windowsOf page) (s.store.firstSpin page)
        ((s.link.placeReply ⟨0x87#8, tag, .ok, be2 s.zones.numberToTake⟩).stated .prestart
          .start))) ∧
    ∀ (ws : List WindowRecord) (windows : List Window), 1 ≤ ws.length → ws.length ≤ 16 →
      ws.mapM Window.ofRecord = some windows →
      exec (.startStream tag part ws) s = .next (StartedScan s part none windows 0
        (((s.link.placeReply ⟨0x88#8, tag, .ok, be2 s.zones.numberToTake⟩).stated .prestart
          .start).placeNotice (.flow true)))

/-- The refusals of START-PROFILE and START-STREAM in their order; a refused START changes nothing (R23). The refusals of STEP in
their order; a refused STEP uses no link index and changes nothing (R15, R16, R37). -/
def Obligations.StartsAndStepsRefusedInOrder : Prop :=
  (∀ (tag : Byte) (s : State) (part : Tag8) (page : Nat) (ws : List WindowRecord), Taken s tag →
     let first := page < 16 ∧ (s.store.page page).state = .written ∧
       (s.store.page page).owner = some page
     let legal := 1 ≤ ws.length ∧ ws.length ≤ 16 ∧ ∀ w ∈ ws, (Window.ofRecord w).isSome = true
     let p : Instr := .startProfile tag page part
     let l : Instr := .startStream tag part ws
     (s.seq.state = .unreferenced →
       exec p s = .next (s.replied 0x87#8 tag .notHomed []) ∧
       exec l s = .next (s.replied 0x88#8 tag .notHomed [])) ∧
     (s.seq.state ≠ .unreferenced → s.seq.state ≠ .idle →
       exec p s = .next (s.replied 0x87#8 tag .state []) ∧
       exec l s = .next (s.replied 0x88#8 tag .state [])) ∧
     (s.seq.state = .idle →
       (¬first → exec p s = .next (s.replied 0x87#8 tag .notFound [])) ∧
       (¬legal → exec l s = .next (s.replied 0x88#8 tag .invalid [])) ∧
       (first → 8 ≤ s.zones.count → exec p s = .next (s.replied 0x87#8 tag .recordsFull [])) ∧
       (legal → 8 ≤ s.zones.count → exec l s = .next (s.replied 0x88#8 tag .recordsFull [])))) ∧
  (∀ (tag : Byte) (s : State) (r : StepRecord), Taken s tag →
     (s.seq.source ≠ .link → exec (.step tag r) s = .next (s.replied 0x89#8 tag .source [])) ∧
     (s.seq.source = .link → 32 ≤ s.seq.queue.length →
       exec (.step tag r) s = .next (s.replied 0x89#8 tag .queueFull [])) ∧
     (s.seq.source = .link → s.seq.queue.length < 32 →
       (ScanStep.ofRecord r = none ∨ s.seq.segClosed = true ∨
         (∃ n, ScanStep.ofRecord r = some (.splice n)) ∨
         (ScanStep.ofRecord r = some .resume ∧ s.seq.segKind ≠ some .splice) ∨
         (ScanStep.ofRecord r = some .finish ∧ s.seq.segKind ≠ some .stream)) →
       exec (.step tag r) s = .next (s.replied 0x89#8 tag .invalid [])))

/-- Which step records are legal, kind by kind, whatever the part's state (R2, R4, R5, R6, R7, R15, R197). -/
def Obligations.StepRecordRanges : Prop :=
  ∀ r : StepRecord,
    let legal := (ScanStep.ofRecord r).isSome = true
    let place := r.quench < 9 ∧ -100000 ≤ r.endPos ∧ r.endPos ≤ 2500000
    let spin := r.spin = 65535 ∨ r.spin ≤ 600
    (r.kind = 1 → (legal ↔ place ∧ 100 ≤ r.speed ∧ r.speed ≤ 30000)) ∧
    (r.kind = 2 → (legal ↔ place ∧ 10 ≤ r.speed ∧ r.speed ≤ 15000 ∧ 100 ≤ r.last ∧
      r.last ≤ 100000 ∧ r.zone ≤ 15 ∧ spin)) ∧
    (r.kind = 3 → (legal ↔ 1 ≤ r.last ∧ r.last ≤ 6000 ∧ 1 ≤ r.speed ∧ r.speed ≤ 6000 ∧
      r.zone ≤ 15 ∧ spin)) ∧
    (r.kind = 4 ∨ r.kind = 5 → (legal ↔ 1 ≤ r.last ∧ r.last ≤ 6000)) ∧
    (r.kind = 6 ∨ r.kind = 7 → (legal ↔ r.number ≤ 255)) ∧
    (r.kind = 8 ∨ r.kind = 9 → legal) ∧ (r.kind = 0 ∨ 9 < r.kind → ¬legal)

/-- An accepted STEP joins the tail of the queue with the next link index, takes part in the flow state, and makes the spindle choice
of a stream's PRESTART (R16, R17, R24, R37, R39); no source step stands at the head and RUNNING is not empty. -/
def Obligations.StepJoinsQueue : Prop :=
  ∀ (tag : Byte) (s : State) (r : StepRecord) (step : ScanStep), Taken s tag →
    s.seq.source = .link → s.seq.queue.length < 32 → ScanStep.ofRecord r = some step →
    s.seq.segClosed = false → (∀ n, step ≠ .splice n) →
    (step = .resume → s.seq.segKind = some .splice) →
    (step = .finish → s.seq.segKind = some .stream) → s.vacant = false →
    (∀ q rest, firstNonMark (s.seq.queue ++ [⟨step, .link, s.seq.linkCount⟩]) = some (q, rest) →
      q.step.isSource = false) →
    let holds := step.closes = false ∧ s.seq.flow ≠ .held ∧
      s.cfg.flow.high ≤ s.seq.queue.length + 1
    let spins := s.seq.state = .prestart ∧ s.seq.segKind = some .stream ∧ s.seq.spinTaken = false ∧
      step.spin?.isSome = true
    let rpm := step.spin?.getD 0
    let reply := s.link.placeReply ⟨0x89#8, tag, .ok, be2 s.seq.linkCount⟩
    exec (.step tag r) s = .next { s with
      seq := { s.seq with
        queue := s.seq.queue ++ [⟨step, .link, s.seq.linkCount⟩]
        linkCount := (s.seq.linkCount + 1) % 65536
        segClosed := step.closes
        flow := if step.closes = true then .flowing
          else if s.seq.flow = .held ∨ s.cfg.flow.high ≤ s.seq.queue.length + 1 then .held
          else .flowing
        spinTaken := if spins then true else s.seq.spinTaken }
      travel := if spins then
          { s.travel with
            spindleCommand := rpm,
            lowCount := if s.travel.spindleCommand = rpm then s.travel.lowCount else 0 }
        else s.travel
      link := if holds then reply.placeNotice (.flow false) else reply }

/-- TRIM: clamped values into the shadow, IMMEDIATE into the active trims and to an Active HEAT step; the reply codes and their
precedence (R4, R40, R41, R58). -/
def Obligations.TrimWritesShadow : Prop :=
  ∀ (tag : Byte) (s : State) (t sp m : Nat), Taken s tag →
    let ct := max 500 (min 1500 t)
    let cs := max 500 (min 1200 sp)
    let code : ResultCode := if ct ≠ t ∨ cs ≠ sp then .clamped
      else if s.seq.shadow.isSome then .replaced else .ok
    let l := s.link.placeReply ⟨0x8A#8, tag, code, []⟩
    (m = 0 ∨ 3 < m → exec (.trim tag t sp m) s = .next (s.replied 0x8A#8 tag .invalid [])) ∧
    (m = 2 → exec (.trim tag t sp m) s = .next { s with
      seq := { s.seq with shadow := some ⟨ct, cs, .step⟩ }, link := l }) ∧
    (m = 3 → exec (.trim tag t sp m) s = .next { s with
      seq := { s.seq with shadow := some ⟨ct, cs, .zone⟩ }, link := l }) ∧
    (m = 1 → (∀ a, s.seq.active = some a → ∀ p v e z x y f, a.step ≠ .heat p v e z x y f) →
      exec (.trim tag t sp m) s = .next { s with
        seq := { s.seq with trimT := ct, trimS := cs, shadow := none }, link := l }) ∧
    (∀ a p v e z x y f, m = 1 → s.seq.active = some a → a.step = .heat p v e z x y f →
      s.travel.mode = .scan →
      exec (.trim tag t sp m) s = .next { s with
        seq := { s.seq with
          trimT := ct, trimS := cs, shadow := none, heatSpeed := some (trimmedSpeed v cs) }
        travel := { s.travel with targetSpeed := trimmedSpeed v cs }
        link := l })

/-- INHIBIT on gives the zero order unless it is on already and leaves the enable; INHIBIT off clears inhibit alone; both are answered
OK in every state (R42, R70). -/
def Obligations.InhibitOrders : Prop :=
  ∀ (tag : Byte) (s : State), Taken s tag →
    let l := s.link.placeReply ⟨0x8B#8, tag, .ok, []⟩
    (s.power.inhibit = false → exec (.inhibitOn tag) s = .next { s with
      power := { s.power with
        inhibit := true, pOut := 0, code := 0, ceiling := .none, underFloor := false }
      link := l }) ∧
    (s.power.inhibit = true → exec (.inhibitOn tag) s = .next { s with link := l }) ∧
    exec (.inhibitOff tag) s = .next { s with power := { s.power with inhibit := false }, link := l }

/-! ### Trips -/

/-- FORCE-TRIP, the inverter's FAULT and loss of READY, low coil water, a low spindle, a lost flow in the TRIP class, and a sample that
finds OVERTRAVEL or the following error newly present are latching trips when the latch is clear: record, flush, zero order, end
cause, state, the TRIP notice and behind it the STATE notices (R20, R54, R59, R60, R65, R84, R85, R104, R105, R132, R137, R138, R139,
R148; `Latched`; that STATE stands before RECORD is log 13; the sources raised by published values are those of ConversionsComplete,
TRAIL_FULL that of StepTimerTicks; that a coil water timer still running at a minimum of 0 raises too is the model's choice: log 35).
Each gives the orders of its response, RUNOUT, STOP, STOP_FLOOD or HALT, with STOP_FLOOD for a RUNOUT raised in RUNOUT (R137, R140,
R141, R142, R145; `Responds`; that a carriage found stopped stays in STOPPING is log 28). The emergency stop and the encoder fault
halt the machine in every state without a latch: HALT orders, TRIPPED at once, a record of the scan closed; the encoder fault clears
the reference (R61, R101, R134, R143, R144, R145). -/
def Obligations.TripSourcesLatch : Prop :=
  (∀ s : State, s.trip.latch = false →
     let x := s.cfg.trip
     let orders : State → State → Response → Prop := fun u t r => TrailInv s → HasTrailRoom s →
       Responds u t (if r = .runout ∧ s.seq.state = .runout then .stopFlood else r)
     (∀ tag, Taken s tag → ∃ t, exec (.forceTrip tag) s = .next t ∧
       Latched { s with link := s.link.placeReply ⟨0x8C#8, tag, .ok, []⟩ } t .forced none ∧
       orders s t x.respForced) ∧
     (s.inputs.fault = false →
       ∃ t, exec (.faultInputChange true) s = .next t ∧ Latched s t .inverterFault none ∧
         orders s t x.respInvFault) ∧
     (s.power.enable = true → s.power.readySeen = true → s.inputs.ready = true →
       ∃ t, exec (.readyInputChange false) s = .next t ∧ Latched s t .inverterLost none ∧
         orders s t x.respInvLost) ∧
     (s.trip.coilWaterTimer = true → s.trip.coilWaterLow = false →
       ∃ t, exec .coilWaterTimerExpiry s = .next t ∧ Latched s t .coilWaterLow none ∧
         orders s t x.respCoilWater) ∧
     (s.travel.lowCount = 100 → s.travel.spindleLow = false →
       ∃ t, exec .lowCountReached s = .next t ∧ Latched s t .spindleLow none ∧
         orders s t x.respSpindle) ∧
     ∀ k : Circuit, x.classFlow.get k = .trip →
       let w := s.quench.circuit.get k
       let low : State := { s with
         quench := { s.quench with
           circuit := s.quench.circuit.set k
             { w with watch := .low, proving := none, dropout := none } } }
       (w.watch = .proving → w.proving.isSome = true →
         ∃ t, exec (.provingTimerExpiry k) s = .next t ∧ Latched s t k.flowLow none ∧
           orders low t (x.respFlow.get k)) ∧
       (w.watch = .proved → w.dropout.isSome = true →
         ∃ t, exec (.dropoutTimerExpiry k) s = .next t ∧ Latched s t k.flowLow none ∧
           orders low t (x.respFlow.get k))) ∧
  (∀ (s : State) (counts : Int) (rpm : Nat) (ref low high : Bool), s.trip.latch = false →
     ∃ t, exec (.positionSample counts rpm ref low high) s = .next t ∧
       let c := s.cfg.machine
       let pos := t.travel.position
       let out := (s.travel.planSpeed < 0 ∨ t.travel.speed < -5)
       let up := (0 < s.travel.planSpeed ∨ 5 < t.travel.speed)
       let passed := (s.travel.overSoft = false ∧ s.travel.referenced = true ∧
           (pos < c.softLow ∧ out ∨ c.softHigh < pos ∧ up)) ∨
         (s.travel.overLow = false ∧ low = true ∧ out) ∨
         (s.travel.overHigh = false ∧ high = true ∧ up)
       let astray := s.travel.followingError = false ∧ s.travel.driveEnable = true ∧
         c.feLimit < (s.travel.plan.tdiv 1000 - pos).natAbs
       let u := { s with travel := { s.travel with position := pos, speed := t.travel.speed } }
       (passed → Latched u t .overtravel none) ∧
       (¬passed → s.inputs.encoder = false → astray → Latched u t .followingError none)) ∧
  (∀ s : State, s.trip.latch = false →
     (s.inputs.estop = false →
       ∃ t, exec (.emergencyStopInput true) s = .next t ∧ Latched s t .estop none ∧ Halted t ∧
         t.inputs = { s.inputs with estop := true } ∧ t.zones.openRec = none ∧
         t.seq.passDir = none ∧ t.seq.scanClock = none ∧ t.store.inUse = none) ∧
     (s.travel.encoderFault = false →
       ∃ t, exec (.encoderFaultInput true) s = .next t ∧ Latched s t .encoderFault none ∧ Halted t ∧
         t.inputs = { s.inputs with encoder := true } ∧ t.travel.referenced = false ∧
         t.zones.openRec = none))

/-- Further trips, by `FurtherTrip`: in TRIPPED, and in TRIPPING under STOP or STOP_FLOOD, the record alone changes; under RUNOUT a
STOP_FLOOD takes over; a HALT gives its orders in both states and enters TRIPPED from TRIPPING (R138, R146, R147; that STATE stands
before RECORD is log 13, that a carriage found stopped stays in STOPPING is log 28). So by FORCE-TRIP (R148), the emergency stop and
the encoder fault (R61, R134), the inverter's FAULT, the coil water, spindle and flow sources, the sources of published values (no
INVERTER_LOST: the enable is off in both states, R83; a coil water timer still running at a minimum of 0: log 35), and TRAIL_FULL of
a RUNOUT response's OFF request (R96, R140; behind both requests: log 23); at a sample each condition newly present counts, in the
order of R48. CLEAR-TRIP: STATE, STILL_PRESENT, or latch, record and response cleared and IDLE or UNREFERENCED entered, all else left
as it stands (R149). -/
def Obligations.FurtherTripsAndClearing : Prop :=
  (∀ s : State, s.trip.latch = true →
     let x := s.cfg.trip
     (∀ tag, Taken s tag → ∃ t, exec (.forceTrip tag) s = .next t ∧
       FurtherTrip { s with link := s.link.placeReply ⟨0x8C#8, tag, .ok, []⟩ } t .forced) ∧
     (s.inputs.estop = false → ∃ t, exec (.emergencyStopInput true) s = .next t ∧
       FurtherTrip { s with inputs := { s.inputs with estop := true } } t .estop) ∧
     (s.travel.encoderFault = false → ∃ t, exec (.encoderFaultInput true) s = .next t ∧
       FurtherTrip { s with
         inputs := { s.inputs with encoder := true }
         travel := { s.travel with encoderFault := true, referenced := false } } t
         .encoderFault) ∧
     (s.inputs.fault = false → ∃ t, exec (.faultInputChange true) s = .next t ∧
       FurtherTrip { s with inputs := { s.inputs with fault := true } } t .inverterFault) ∧
     (s.trip.coilWaterTimer = true → s.trip.coilWaterLow = false →
       ∃ t, exec .coilWaterTimerExpiry s = .next t ∧
         FurtherTrip { s with
           trip := { s.trip with coilWaterTimer := false, coilWaterLow := true } } t
           .coilWaterLow) ∧
     (s.travel.lowCount = 100 → s.travel.spindleLow = false →
       ∃ t, exec .lowCountReached s = .next t ∧
         FurtherTrip { s with travel := { s.travel with spindleLow := true } } t .spindleLow) ∧
     (∀ k : Circuit, x.classFlow.get k = .trip →
       let w := s.quench.circuit.get k
       let low : State := { s with
         quench := { s.quench with
           circuit := s.quench.circuit.set k
             { w with watch := .low, proving := none, dropout := none } }
         zones := match k with
           | .q1 => s.shorted .q1
           | .q2 => s.shorted .q2
           | .q3 => s.zones }
       (w.watch = .proving → w.proving.isSome = true →
         ∃ t, exec (.provingTimerExpiry k) s = .next t ∧ FurtherTrip low t k.flowLow) ∧
       (w.watch = .proved → w.dropout.isSome = true →
         ∃ t, exec (.dropoutTimerExpiry k) s = .next t ∧ FurtherTrip low t k.flowLow)) ∧
     ∀ v : Int,
       (x.classCoilOver = .trip → s.power.coilOver = false → (x.iMax : Int) < v →
         FurtherTrip { s with power := { s.power with coilOver := true } } (s.publish .coilI v)
           .coilOvercurrent) ∧
       (x.classPyro = .trip → s.power.pyroHigh = false → (x.tMax : Int) < v →
         FurtherTrip { s with power := { s.power with pyroHigh := true } } (s.publish .pyro v)
           .pyroHigh) ∧
       (x.classQTemp = .trip → s.trip.quenchTempHigh = false → (x.qTempLimit : Int) < v →
         FurtherTrip { s with trip := { s.trip with quenchTempHigh := true } } (s.publish .qTemp v)
           .quenchTempHigh)) ∧
  (∀ (s : State) (r : TripRecord) (counts : Int) (rpm : Nat) (ref low high : Bool),
     s.trip.latch = true → s.trip.record = some r →
     s.seq.state = .tripping ∨ s.seq.state = .tripped → s.seq.active = none →
     s.inputs.encoder = false →
     ∃ t, exec (.positionSample counts rpm ref low high) s = .next t ∧
       let now := t.travel
       let raised : List Source :=
         (if now.overSoft = true ∧ s.travel.overSoft = false then [.overtravel] else []) ++
         (if now.overLow = true ∧ s.travel.overLow = false then [.overtravel] else []) ++
         (if now.overHigh = true ∧ s.travel.overHigh = false then [.overtravel] else []) ++
         (if now.followingError = true ∧ s.travel.followingError = false then [.followingError]
           else [])
       t.trip.record = some (raised.foldl TripRecord.also r) ∧ t.seq = s.seq ∧ t.link = s.link ∧
       if raised ≠ [] ∧ s.seq.state = .tripping ∧ s.trip.response = some .runout then
         let u := (s.sampledAt now).floodTaken
         t.quench = u.quench ∧ t.power = u.power ∧ t.trip = { u.trip with record := t.trip.record } ∧
           (s.travel.mode ≠ .disabled → now.mode = .stopping ∧ now.targetSpeed = 0)
       else t.power = s.power ∧ t.quench = s.releasedAt now.position now.speed now.still ∧
         t.trip.response = s.trip.response) ∧
  (∀ (tag : Byte) (s : State) (ring : Ring) (d : Dir) (e : TrailEntry), Taken s tag →
     s.trip.latch = false →
     s.seq.state = .running → s.cfg.trip.respForced = .runout → s.seq.passDir = some d →
     s.quench.trailFull = false → (s.quench.trail.get ring).entries.length = 16 →
     (s.quench.trail.get ring).entries.getLast? = some e → e.on = true →
     d.beyond s.travel.position e.pos = true →
     ∃ t r, exec (.forceTrip tag) s = .next t ∧
       Latched { s with link := s.link.placeReply ⟨0x8C#8, tag, .ok, []⟩ } t .forced none ∧
       Responds s t .stopFlood ∧ t.trip.record = some r ∧ r.later = [.trailFull] ∧ r.count = 2) ∧
  (∀ (tag : Byte) (s : State), Taken s tag →
     let held := ∃ src, s.present src = true ∧ s.cfg.trip.classOf src = .trip
     let rest : SeqState := if s.travel.referenced then .idle else .unreferenced
     (s.seq.state ≠ .tripped →
       exec (.clearTrip tag) s = .next (s.replied 0x8D#8 tag .state [])) ∧
     (s.seq.state = .tripped → held →
       exec (.clearTrip tag) s = .next (s.replied 0x8D#8 tag .stillPresent [])) ∧
     (s.seq.state = .tripped → ¬held → exec (.clearTrip tag) s = .next { s with
       seq := { s.seq with state := rest }
       trip := { s.trip with
         latch := false, record := none, response := none, responseDone := false,
         trailsSeen := false, stoppedSeen := false, floodSeen := false }
       link := (s.link.placeReply ⟨0x8D#8, tag, .ok, []⟩).stated rest .cleared }))

/-! ### The Profile Store and the record list -/

/-- PROFILE-OPEN: the five checks in order, and the pages of an accepted one (R170, R171, R172, R173). -/
def Obligations.ProfileOpenTakesPages : Prop :=
  ∀ (tag : Byte) (s : State) (page size zones steps : Nat) (name : Tag8), Taken s tag →
    StoreInv s.store →
    let c : Instr := .profileOpen tag page size zones steps name
    let one := page < 16 ∧ size ∈ [1, 2, 4, 8] ∧ 1 ≤ zones ∧ zones ≤ 16 ∧ steps ≠ 0
    let four := ∃ i < 16, (s.store.page i).state = .opened
    let five := ∃ i < 16, page ≤ i ∧ i < page + size ∧ (s.store.page i).state ≠ .free
    (¬one → exec c s = .next (s.replied 0x90#8 tag .invalid [])) ∧
    (one → page % size ≠ 0 → exec c s = .next (s.replied 0x90#8 tag .align [])) ∧
    (one → page % size = 0 → 40 * size < steps →
      exec c s = .next (s.replied 0x90#8 tag .size [])) ∧
    (one → page % size = 0 → steps ≤ 40 * size → four →
      exec c s = .next (s.replied 0x90#8 tag .openProfile [])) ∧
    (one → page % size = 0 → steps ≤ 40 * size → ¬four → five →
      exec c s = .next (s.replied 0x90#8 tag .occupied [])) ∧
    (one → page % size = 0 → steps ≤ 40 * size → ¬four → ¬five →
      ∃ t, exec c s = .next t ∧
        (∀ i < 16, t.store.page i =
          if page ≤ i ∧ i < page + size then
            { state := .opened, owner := some page, slots := List.replicate 40 none,
              header := if i = page then some ⟨name, size, zones, steps⟩ else none,
              windows := List.replicate 16 none }
          else s.store.page i) ∧
        t.store.zoneMarks = List.replicate 16 false ∧
        t.store.stepMarks = List.replicate 320 false ∧ t.store.inUse = s.store.inUse ∧
        t.link = s.link.placeReply ⟨0x90#8, tag, .ok, []⟩ ∧ Keeps s t [.store, .link])

/-- PROFILE-DATA: which window records are legal (R18); the check of a record, RANGE before INVALID (R175; that order is log 33); the
refusals with their position, and what a request whose records all pass writes: every named index is marked, the last record of each
index stands in its slot or place, every other slot and window of the 16 pages as it was (R171, R174, R175). -/
def Obligations.ProfileDataWrites : Prop :=
  (∀ w : WindowRecord,
    let bounded : Nat → Prop := fun top =>
      w.low ≤ top ∧ w.high ≤ top ∧ (w.high = 0 ∨ w.low ≤ w.high)
    (w.kind = 1 → bounded 100000 → Window.ofRecord w = some ⟨.density, w.low, w.high⟩) ∧
    (w.kind = 2 → bounded 1000000 → Window.ofRecord w = some ⟨.total, w.low, w.high⟩) ∧
    ((w.kind ≠ 1 ∨ ¬bounded 100000) → (w.kind ≠ 2 ∨ ¬bounded 1000000) →
      Window.ofRecord w = none)) ∧
  (∀ (h : Header) (r : DataRecord),
    let beyond : Prop := match r with
      | .zone i _ => h.zones ≤ i
      | .step i _ => h.steps ≤ i
    let legal : Prop := match r with
      | .zone _ w => (Window.ofRecord w).isSome = true
      | .step _ x => ∃ st, ScanStep.ofRecord x = some st ∧ st ≠ .resume ∧ st ≠ .finish
    (beyond → DataRecord.check h r = some .range) ∧
    (¬beyond → ¬legal → DataRecord.check h r = some .invalid) ∧
    (¬beyond → legal → DataRecord.check h r = none)) ∧
  ∀ (tag : Byte) (s : State) (page : Nat) (rs : List DataRecord), Taken s tag → StoreInv s.store →
    let c : Instr := .profileData tag page rs
    let h := s.store.header page
    let isOpen := page < 16 ∧ (s.store.page page).state = .opened ∧
      (s.store.page page).owner = some page
    (¬isOpen → exec c s = .next (s.replied 0x91#8 tag .state [])) ∧
    (isOpen → rs = [] → exec c s = .next (s.replied 0x91#8 tag .invalid [])) ∧
    (isOpen → ∀ good bad rest code, rs = good ++ bad :: rest →
      (∀ r ∈ good, DataRecord.check h r = none) → DataRecord.check h bad = some code →
      exec c s = .next (s.replied 0x91#8 tag code [byteOf (good.length + 1)])) ∧
    (isOpen → rs ≠ [] → (∀ r ∈ rs, DataRecord.check h r = none) →
      ∃ t, exec c s = .next t ∧ t.link = s.link.placeReply ⟨0x91#8, tag, .ok, [0#8]⟩ ∧
        (∀ i < 16, t.store.zoneMarks.getD i false =
          (s.store.zoneMarks.getD i false || rs.any fun r => match r with
            | .zone k _ => k == i
            | .step _ _ => false)) ∧
        (∀ i < 320, t.store.stepMarks.getD i false =
          (s.store.stepMarks.getD i false || rs.any fun r => match r with
            | .zone _ _ => false
            | .step k _ => k == i)) ∧
        (∀ i < 16, (t.store.page i).state = (s.store.page i).state ∧
          (t.store.page i).owner = (s.store.page i).owner ∧
          (t.store.page i).header = (s.store.page i).header) ∧
        (∀ i < 40 * h.size,
          (∀ before r after, rs = before ++ .step i r :: after → (∀ r', .step i r' ∉ after) →
            t.store.stepAt page i = ScanStep.ofRecord r) ∧
          ((∀ r, .step i r ∉ rs) → t.store.stepAt page i = s.store.stepAt page i)) ∧
        (∀ i < 16,
          (∀ before w after, rs = before ++ .zone i w :: after → (∀ w', .zone i w' ∉ after) →
            (t.store.page page).windows.getD i none = Window.ofRecord w) ∧
          ((∀ w, .zone i w ∉ rs) →
            (t.store.page page).windows.getD i none =
              (s.store.page page).windows.getD i none)) ∧
        (∀ k < 16, (k ≠ page → (t.store.page k).windows = (s.store.page k).windows) ∧
          ∀ j, (∀ i r, .step i r ∈ rs → ¬(k = page + i / 40 ∧ j = i % 40)) →
            (t.store.page k).slots.getD j none = (s.store.page k).slots.getD j none) ∧
        t.store.inUse = s.store.inUse ∧ Keeps s t [.store, .link])

/-- PROFILE-CLOSE and PROFILE-ERASE: refusals, a complete profile becomes WRITTEN with its contents, one that misses a zone or a
step or holds a bad one is INCOMPLETE with its reason and lowest index and leaves its pages FREE, as an erased one does (R176, R177,
R179). -/
def Obligations.ProfileCloseAndErase : Prop :=
  ∀ (tag : Byte) (s : State) (page : Nat), Taken s tag → StoreInv s.store →
    let h := s.store.header page
    let isOpen := page < 16 ∧ (s.store.page page).state = .opened ∧
      (s.store.page page).owner = some page
    let freed : State → Prop := fun t => ∀ i < 16, t.store.page i =
      if (s.store.page i).owner = some page then .free else s.store.page i
    let named := (s.store.page page).state ≠ .free ∧ (s.store.page page).owner = some page
    (¬isOpen → exec (.profileClose tag page) s = .next (s.replied 0x92#8 tag .state [])) ∧
    (isOpen → (∀ i < h.zones, s.store.zoneMarks.getD i false = true) →
      (∀ i < h.steps, s.store.stepMarks.getD i false = true) →
      (∀ i < h.steps, ∀ st, s.store.stepAt page i = some st →
        st.closes = false ∧ ∀ z, st.zone? = some z → z < h.zones) →
      ∃ t, exec (.profileClose tag page) s = .next t ∧
        (∀ i < 16, t.store.page i = if (s.store.page i).owner = some page then
          { s.store.page i with state := .written } else s.store.page i) ∧
        t.link = s.link.placeReply ⟨0x92#8, tag, .ok, [0#8, 0#8, 0#8]⟩ ∧
        t.store.inUse = s.store.inUse ∧ Keeps s t [.store, .link]) ∧
    (isOpen → ∀ z < h.zones, s.store.zoneMarks.getD z false = false →
      (∀ i < z, s.store.zoneMarks.getD i false = true) →
      ∃ t, exec (.profileClose tag page) s = .next t ∧ freed t ∧
        t.link = s.link.placeReply ⟨0x92#8, tag, .incomplete, 1#8 :: be2 z⟩ ∧
        Keeps s t [.store, .link]) ∧
    (isOpen → (∀ i < h.zones, s.store.zoneMarks.getD i false = true) →
      ∀ k < h.steps, s.store.stepMarks.getD k false = false →
      (∀ i < k, s.store.stepMarks.getD i false = true) →
      ∃ t, exec (.profileClose tag page) s = .next t ∧ freed t ∧
        t.link = s.link.placeReply ⟨0x92#8, tag, .incomplete, 2#8 :: be2 k⟩ ∧
        Keeps s t [.store, .link]) ∧
    (isOpen → (∀ i < h.zones, s.store.zoneMarks.getD i false = true) →
      (∀ i < h.steps, s.store.stepMarks.getD i false = true) →
      let bad : Nat → Prop := fun i => ∃ st, s.store.stepAt page i = some st ∧
        (st.closes = true ∨ ∃ z, st.zone? = some z ∧ h.zones ≤ z)
      ∀ k < h.steps, bad k → (∀ i < k, ¬bad i) →
      ∃ t, exec (.profileClose tag page) s = .next t ∧ freed t ∧
        t.link = s.link.placeReply ⟨0x92#8, tag, .incomplete, 3#8 :: be2 k⟩ ∧
        Keeps s t [.store, .link]) ∧
    (16 ≤ page → exec (.profileErase tag page) s = .next (s.replied 0x93#8 tag .invalid [])) ∧
    (page < 16 → ¬named →
      exec (.profileErase tag page) s = .next (s.replied 0x93#8 tag .notFound [])) ∧
    (page < 16 → named → s.store.inUse = some page →
      exec (.profileErase tag page) s = .next (s.replied 0x93#8 tag .inUse [])) ∧
    (page < 16 → named → s.store.inUse ≠ some page →
      ∃ t, exec (.profileErase tag page) s = .next t ∧ freed t ∧
        t.link = s.link.placeReply ⟨0x93#8, tag, .ok, []⟩ ∧ t.store.inUse = s.store.inUse ∧
        Keeps s t [.store, .link])

/-- PROFILE-LIST and RECORD-GET change nothing but the output queue and answer as their tables say (R166, R180). -/
def Obligations.ListAndRecordGet : Prop :=
  ∀ (tag : Byte) (s : State) (n : Nat), Taken s tag →
    exec (.profileList tag) s = .next (s.replied 0x94#8 tag .ok s.store.listPayload) ∧
    s.store.listPayload.length = 288 ∧
    (∀ r rest, n = 0 → s.zones.closed = r :: rest →
      exec (.recordGet tag n) s = .next (s.replied 0x98#8 tag .ok r.bytes)) ∧
    (n = 0 → s.zones.closed = [] →
      exec (.recordGet tag n) s = .next (s.replied 0x98#8 tag .notFound [])) ∧
    (∀ a r b, n ≠ 0 → s.zones.closed = a ++ r :: b → (∀ x ∈ a, x.number ≠ n) → r.number = n →
      exec (.recordGet tag n) s = .next (s.replied 0x98#8 tag .ok r.bytes)) ∧
    (∀ o, n ≠ 0 → (∀ x ∈ s.zones.closed, x.number ≠ n) → s.zones.openRec = some o →
      o.number = n → exec (.recordGet tag n) s = .next (s.replied 0x98#8 tag .state [])) ∧
    (n ≠ 0 → n ∉ s.zones.numbers →
      exec (.recordGet tag n) s = .next (s.replied 0x98#8 tag .notFound []))

/-- RECORD-RELEASE (R167): a closed record leaves the list, those behind it keep their order; the open record's number is refused with
STATE, a number no record carries with NOT_FOUND. -/
def Obligations.RecordReleaseFrees : Prop :=
  ∀ (tag : Byte) (s : State) (n : Nat), Taken s tag → s.zones.numbers.Nodup →
    (∀ a r b, s.zones.closed = a ++ r :: b → r.number = n →
      exec (.recordRelease tag n) s = .next { s with
        zones := { s.zones with closed := a ++ b }
        link := s.link.placeReply ⟨0x99#8, tag, .ok, []⟩ }) ∧
    (∀ o, s.zones.openRec = some o → o.number = n →
      exec (.recordRelease tag n) s = .next (s.replied 0x99#8 tag .state [])) ∧
    (n ∉ s.zones.numbers →
      exec (.recordRelease tag n) s = .next (s.replied 0x99#8 tag .notFound []))

/-- The close of a record: each zone's energy in J, mean density and window flags (R161), the total (R163), INTERRUPTED and the verdict
(R162). -/
def Obligations.VerdictOfARecord : Prop :=
  ∀ (r : OpenRecord) (cause : EndCause) (time : Nat) (trip : Option TripRecord),
    let p := r.close cause time trip
    (∀ z ∈ p.zones, z.interrupted = true ↔ cause ≠ .complete ∧ r.lastZone = some z.zone) ∧
    p.zones.length = r.zones.length ∧ (∀ (i : Nat) (z : ZoneSummary), p.zones[i]? = some z → z.zone = i) ∧
    (∀ (i : Nat) (e : ZoneEntry) (z : ZoneSummary), r.zones[i]? = some e → p.zones[i]? = some z →
      let w := e.window
      let density := e.acc.energy * 100 / e.acc.length
      z.energy = e.acc.energy / 10 ∧ z.length = e.acc.length ∧
      z.density = (if e.acc.length = 0 then none else some density) ∧
      z.quenchShort = e.acc.quenchShort ∧
      (w.kind = .density →
        (z.outLow = true ↔ e.acc.length < 1000 ∨ 0 < w.low ∧ density < w.low) ∧
        (z.outHigh = true ↔ 1000 ≤ e.acc.length ∧ w.high ≠ 0 ∧ w.high < density)) ∧
      (w.kind = .total →
        (z.outLow = true ↔ 0 < w.low ∧ e.acc.energy / 10 < w.low * 1000) ∧
        (z.outHigh = true ↔ w.high ≠ 0 ∧ w.high * 1000 < e.acc.energy / 10))) ∧
    p.total = (p.zones.map (·.energy)).sum ∧
    (r.powered = false → p.verdict = .notRun) ∧
    (r.powered = true → cause = .complete →
      (∀ z ∈ p.zones, z.outLow = false ∧ z.outHigh = false ∧ z.quenchShort = false ∧
        z.interrupted = false) → p.verdict = .pass) ∧
    (r.powered = true →
      (cause ≠ .complete ∨ ∃ z ∈ p.zones, z.outLow = true ∨ z.outHigh = true ∨
        z.quenchShort = true ∨ z.interrupted = true) → p.verdict = .reject)

/-! ### RESTART and RESET -/

/-- RESTART is refused outside IDLE, UNREFERENCED and TRIPPED; accepted with the inverter fault, encoder fault and emergency stop
inputs inactive it leaves the values of the RESTART columns, with one of them active the part is TRIPPED again at once, the lowest
source code first (R47, R67, R91, R113, R129, R152, R169, R183, R195). RESET leaves the reset values in the same two ways (R47,
R67, R91, R113, R129, R152, R169, R183, R196). That the encoder fault is taken at once is log 9 (R152, where R67 names the first
sample), that the input levels stay is log 10, that the waiting commands stay is log 11, that the measured rpm and the values no
table names stand as they do is log 12. -/
def Obligations.RestartAndReset : Prop :=
  (∀ (tag : Byte) (s : State), Taken s tag →
     let rest : SeqState := if s.travel.referenced then .idle else .unreferenced
     let open_ := s.seq.state.isRest = true ∨ s.seq.state = .tripped
     let l := s.link.placeReply ⟨0x83#8, tag, .ok, []⟩
     (¬open_ → exec (.restart tag) s = .next (s.replied 0x83#8 tag .state [])) ∧
     (open_ → s.inputs.fault = false → s.inputs.encoder = false → s.inputs.estop = false →
       exec (.restart tag) s = .next { s with
         seq := { Seq.reset with state := rest, lastEnd := s.seq.lastEnd }
         travel := { Travel.reset with
           position := s.travel.position, history := List.replicate 16 s.travel.position,
           referenced := s.travel.referenced, plan := s.travel.position * 1000,
           rpm := s.travel.rpm }
         power := .reset, quench := .reset, meas := .reset s.cfg.measure, trip := .reset,
         store := { s.store with inUse := none }
         link := ({ l with rxBytes := [], rxBuffer := [], out := l.out.filter OutFrame.isReply }
           : Link).stated rest .restart }) ∧
     (RecordInv s → open_ →
       s.inputs.fault = true ∨ s.inputs.encoder = true ∨ s.inputs.estop = true →
       ∃ t r, exec (.restart tag) s = .next t ∧ t.seq.state = .tripped ∧ t.trip.latch = true ∧
         t.trip.record = some r ∧
         r.cause = (if s.inputs.fault then .inverterFault
           else if s.inputs.encoder then .encoderFault else .estop) ∧
         t.seq.lastEnd = s.seq.lastEnd ∧ t.cfg = s.cfg ∧ t.inputs = s.inputs ∧
         t.zones.closed = s.zones.closed ∧ t.store.pages = s.store.pages ∧
         t.travel.referenced = (s.travel.referenced && !s.inputs.encoder) ∧
         t.pending = s.pending)) ∧
  (∀ s : State,
     (s.inputs.fault = false → s.inputs.encoder = false → s.inputs.estop = false →
       exec .reset s = .next { State.reset with inputs := s.inputs, pending := s.pending }) ∧
     (s.inputs.fault = true ∨ s.inputs.encoder = true ∨ s.inputs.estop = true →
       ∃ t r, exec .reset s = .next t ∧ t.seq.state = .tripped ∧ t.trip.latch = true ∧
         t.trip.record = some r ∧
         r.cause = (if s.inputs.fault then .inverterFault
           else if s.inputs.encoder then .encoderFault else .estop) ∧
         t.cfg = .default ∧ t.inputs = s.inputs ∧ t.zones = .reset ∧ t.store = .reset ∧
         t.pending = s.pending))

/-! ### The position sample -/

/-- What every sample leaves: position, history, measured speed, still count, rpm, the presence of OVERTRAVEL, of the encoder fault and
of the following error, the low count, a command within the drive's range, and what no sample touches (R48, R49, R50, R53, R54,
R59, R60, R61, R65; a count that leaves 32 bits: log 7; that the low switch asks for movement at the first sample of a homing run as
well is log 30). -/
def Obligations.SampleMeasures : Prop :=
  ∀ (counts : Int) (rpm : Nat) (ref low high : Bool) (s : State),
    ∃ t, exec (.positionSample counts rpm ref low high) s = .next t ∧
      (-2147483648 ≤ s.travel.position + counts → s.travel.position + counts < 2147483648 →
        t.travel.position = s.travel.position + counts) ∧
      -2147483648 ≤ t.travel.position ∧ t.travel.position < 2147483648 ∧
      t.travel.history = s.travel.history.tail ++ [t.travel.position] ∧
      t.travel.speed =
        roundDiv ((t.travel.position - s.travel.history.headD s.travel.position) * 25) 4 ∧
      t.travel.still =
        (if t.travel.speed.natAbs ≤ 5 then min (s.travel.still + 1) 20 else 0) ∧
      t.travel.rpm = min rpm 1000 ∧ -30000 ≤ t.travel.speedCommand ∧
      t.travel.speedCommand ≤ 30000 ∧
      (t.travel.driveEnable = false → t.travel.speedCommand = 0) ∧
      (let m := s.cfg.machine
       let pos := t.travel.position
       let out := s.travel.planSpeed < 0 ∨ t.travel.speed < -5
       let up := 0 < s.travel.planSpeed ∨ 5 < t.travel.speed
       let slow := s.heatingZone.isSome = true ∧ 0 < s.travel.spindleCommand ∧
         t.travel.rpm * 2 < s.travel.spindleCommand
       (t.travel.overSoft = true ↔
         s.travel.referenced = true ∧ (pos < m.softLow ∧ out ∨ m.softHigh < pos ∧ up)) ∧
       (t.travel.overLow = true ↔ low = true ∧ out) ∧
       (t.travel.overHigh = true ↔ high = true ∧ up) ∧
       t.travel.encoderFault = s.inputs.encoder ∧
       t.travel.referenced =
         (s.travel.referenced && (!s.inputs.encoder || s.travel.encoderFault)) ∧
       (s.inputs.encoder = false → (t.travel.followingError = true ↔
         s.travel.driveEnable = true ∧ m.feLimit < (s.travel.plan.tdiv 1000 - pos).natAbs)) ∧
       (t.travel.spindleCommand = s.travel.spindleCommand →
         t.travel.lowCount = if slow then min (s.travel.lowCount + 1) 100 else 0) ∧
       (slow → t.travel.spindleLow = s.travel.spindleLow) ∧
       (¬slow → t.travel.spindleLow = false)) ∧
      t.meas = s.meas ∧ t.power.acc = s.power.acc ∧ t.power.inhibit = s.power.inhibit ∧ t.cfg = s.cfg ∧
      t.inputs = s.inputs ∧ t.store.pages = s.store.pages ∧ t.pending = s.pending

/-- A sample in IDLE of a carriage at rest within its limits, its history settled: nothing but the sample's own values moves, and the
command is the correction term (R48, R49, R50, R53, R54, R65). -/
def Obligations.SampleHoldsInIdle : Prop :=
  ∀ (s : State) (rpm : Nat) (ref low high : Bool), s.seq.state = .idle → s.seq.active = none →
    s.seq.passDir = none → s.quench.trailsEmpty = true → s.travel.mode = .hold →
    s.travel.driveEnable = true → s.travel.planSpeed = 0 →
    s.travel.history = List.replicate 16 s.travel.position → -2147483648 ≤ s.travel.position →
    s.travel.position < 2147483648 →
    (s.travel.plan.tdiv 1000 - s.travel.position).natAbs ≤ s.cfg.machine.feLimit →
    s.inputs.encoder = false → s.zones.openRec = none →
    exec (.positionSample 0 rpm ref low high) s = .next { s with
      travel := { s.travel with
        speed := 0, still := min (s.travel.still + 1) 20, rpm := min rpm 1000, lowCount := 0,
        spindleLow := false, overSoft := false, overLow := false, overHigh := false,
        encoderFault := false, followingError := false,
        speedCommand := max (-30000) (min 30000 (roundDiv
          (s.cfg.machine.kp * (s.travel.plan.tdiv 1000 - s.travel.position)) 10)) } }

/-- The command of every sample, with the creep onto a stop point, from what the sample leaves (R53); and the generator at a sample
that raises nothing: the stop that trails newly empty order (R100), else mode by mode without a motion step Active, SEEK with its
switch and its stroke, TARGET with its arrival (the mark is log 17; without a direction it runs and creeps as FORWARD: log 34), and
SCAN with its braking decision (R51, R52, R55, R56, R57, R58, R62, R63; that an overrun is judged at the decision is log 16). -/
def Obligations.SampleDrivesCarriage : Prop :=
  ∀ (counts : Int) (rpm : Nat) (ref low high : Bool) (s t : State),
    exec (.positionSample counts rpm ref low high) s = .next t →
    let m := s.cfg.machine
    let acc : Int := m.accel
    let pos := t.travel.position
    let raw := roundDiv ((if t.travel.mode = .hold then 0 else t.travel.planSpeed) +
      m.kp * (t.travel.plan.tdiv 1000 - pos)) 10
    let toward := t.travel.dir.getD .forward
    let creeps := (t.travel.mode = .scan ∨ t.travel.mode = .target) ∧
      ∃ p, t.travel.stopPoint = some p ∧ t.travel.plan = p * 1000 ∧ toward.reached pos p = false
    (t.travel.driveEnable = true → ¬creeps →
      t.travel.speedCommand = max (-30000) (min 30000 raw)) ∧
    (t.travel.driveEnable = true → creeps → t.travel.speedCommand = max (-30000) (min 30000
      (match toward with | .forward => max raw 10 | .reverse => min raw (-10)))) ∧
    (NoneRaised s t →
      let emptied := s.quench.trailsEmpty = false ∧
        (s.releasedAt pos t.travel.speed t.travel.still).trailsEmpty = true
      let stops := emptied ∧ ((s.seq.state = .running ∧ s.seq.turnPhase = .drain) ∨
        s.seq.state = .runout ∨ (s.seq.state = .tripping ∧ s.trip.response = some .runout))
      let plan := s.travel.plan
      let v := s.travel.planSpeed
      let mode := s.travel.mode
      let aim := (s.travel.targetSpeed : Int) * 10
      let rests := t.travel.planSpeed = approach v 0 acc ∧
        t.travel.plan = plan + t.travel.planSpeed
      let cruises : Dir → Prop := fun d =>
        t.travel.planSpeed = approach v (d.sign * aim) acc ∧
          t.travel.plan = plan + t.travel.planSpeed
      -- the cap of R52: the highest speed from which a stop at the acceleration reaches the point
      let cap : Dir → Int → Nat → Prop := fun d p k =>
        let twice := 2 * m.accel * (d.sign * (p * 1000 - plan)).toNat
        k * k ≤ twice ∧ twice < (k + 1) * (k + 1)
      let runsTo : Dir → Int → Int → Prop := fun d p speed => ∀ k, cap d p k →
        let w := max (min (approach (d.sign * v) speed acc) k) (d.sign * v - acc)
        if d.reached (plan + d.sign * w) (p * 1000) = true then
          t.travel.plan = p * 1000 ∧ t.travel.planSpeed = 0
        else t.travel.plan = plan + d.sign * w ∧ t.travel.planSpeed = d.sign * w
      ((∀ x, s.seq.active = some x → x.step.isMotion = false) → stops → mode ≠ .disabled →
        t.travel.mode = .stopping ∧ t.travel.targetSpeed = 0 ∧ rests) ∧
      ((∀ x, s.seq.active = some x → x.step.isMotion = false) → ¬stops →
        (mode = .hold ∨ mode = .stopping → t.travel.mode = mode ∧ rests) ∧
        (mode = .disabled → t.travel.mode = mode ∧ t.travel.plan = pos * 1000 ∧
          t.travel.planSpeed = 0) ∧
        (∀ d, mode = .drain → s.travel.dir = some d → t.travel.mode = mode ∧ cruises d) ∧
        (∀ d h, mode = .seek → s.travel.dir = some d → s.travel.homingStart = some h →
          if ref = true then t.travel.mode = .stopping ∧ t.travel.switchFound = true ∧ rests
          else if m.homingStroke < (pos - h).natAbs then
            t.travel.mode = .stopping ∧ t.travel.switchFound = s.travel.switchFound ∧ rests
          else t.travel.mode = mode ∧ t.travel.switchFound = s.travel.switchFound ∧ cruises d) ∧
        (∀ p, mode = .target → s.travel.stopPoint = some p →
          t.travel.mode = mode ∧ runsTo (s.travel.dir.getD .forward) p aim ∧
            t.travel.arrivalSeen = (if s.seq.state = .positioning ∧
                (s.travel.dir = none ∨ (s.travel.dir.getD .forward).reached pos p = true) then
              true else s.travel.arrivalSeen))) ∧
      ∀ x d, mode = .scan → s.seq.active = some x → x.step.isMotion = true → x.dir = some d →
        s.travel.dir = some d → d.reached pos x.stop = false → ¬stops →
        let near := (x.stop - plan.tdiv 1000).natAbs ≤
          v.natAbs * v.natAbs / (2000 * m.accel) + 1000
        let carries := ∃ n, s.seq.next = some n ∧ n.step.isMotion = true ∧ n.turn = false ∧
          n.dir = some d
        let decision := s.travel.decision
        t.travel.mode = mode ∧
        (decision ≠ .none ∨ ¬near → t.travel.decision = decision ∧
          t.travel.stopPoint = s.travel.stopPoint) ∧
        (decision = .none → near → carries → t.travel.decision = .continue) ∧
        (decision = .none → near → ¬carries → t.travel.decision = .brake ∧
          (∀ p, s.travel.finish = .at p → t.travel.stopPoint = some x.stop) ∧
          ((∀ p, s.travel.finish ≠ .at p) → ∀ k, cap d x.stop k → t.travel.stopPoint =
            if d.sign * v - acc ≤ k then some x.stop else none)) ∧
        (s.travel.finish = .none →
          (t.travel.decision ≠ .brake → cruises d) ∧
          (∀ p, t.travel.decision = .brake → t.travel.stopPoint = some p → runsTo d p aim) ∧
          (t.travel.decision = .brake → t.travel.stopPoint = none → rests)) ∧
        (s.travel.finish = .rest → rests) ∧
        (∀ p, s.travel.finish = .at p →
          runsTo (if v < 0 then .reverse else .forward) p v.natAbs) ∧
        t.travel.finish = if t.travel.planSpeed = 0 then .none else s.travel.finish)

/-- The release of one ring's trail: the due entries leave head first, the new head is not due, each that leaves sets valve and flow
watch (PROVING with its timer behind an opening, PROVED with a flow-min of 0, CLOSED behind an OFF), so that the valve takes the
state of the last; a mark goes with the last entry, and nothing else changes (R92, R96, R97, R98, R99, R104, R106). A sample that
raises nothing and ends no motion step releases both trails, and none while the stopped condition holds or no pass runs (R99).
Trails that a release leaves both empty order the stop of a turn's DRAIN, of a run-out and of a RUNOUT response (R100, R44, R46,
R140); at every other sample Sequencer and Trip Unit stay as they are. -/
def Obligations.ReleaseTakesDueEntries : Prop :=
  (∀ (q : Quench) (c : QuenchCfg) (d : Dir) (pos v : Int) (r : Ring),
    let lead : Int := ((v.natAbs * c.lead.get r / 100 : Nat) : Int)
    let due : Int → Prop := fun x => match d with
      | .forward => x ≤ pos - c.offset.get r + lead
      | .reverse => pos + c.offset.get r - lead ≤ x
    let q' := q.release c d pos v r
    ∃ gone, (q.trail.get r).entries = gone ++ (q'.trail.get r).entries ∧
      (∀ e ∈ gone, due e.pos) ∧
      (∀ e rest, (q'.trail.get r).entries = e :: rest → ¬due e.pos) ∧
      (q'.circuit.get r.circuit).valve =
        (match gone.getLast? with
          | some e => e.on
          | none => (q.circuit.get r.circuit).valve) ∧
      q'.circuit.get r.circuit = (q.circuit.get r.circuit).passed c r.circuit gone ∧
      ((q'.trail.get r).fullMark = true ↔
        (q.trail.get r).fullMark = true ∧ (q'.trail.get r).entries ≠ []) ∧
      (∀ r', r' ≠ r → q'.trail.get r' = q.trail.get r') ∧
      (∀ k, k ≠ r.circuit → q'.circuit.get k = q.circuit.get k) ∧
      q' = { q with trail := q'.trail, circuit := q'.circuit }) ∧
  ∀ (counts : Int) (rpm : Nat) (ref low high : Bool) (s t : State),
    exec (.positionSample counts rpm ref low high) s = .next t → NoneRaised s t →
    (∀ a d, s.seq.active = some a → a.step.isMotion = true → a.dir = some d →
      d.reached t.travel.position a.stop = false) →
    let released := s.releasedAt t.travel.position t.travel.speed t.travel.still
    let emptied := s.quench.trailsEmpty = false ∧ released.trailsEmpty = true
    let stops := s.travel.mode ≠ .disabled → t.travel.mode = .stopping ∧ t.travel.targetSpeed = 0
    let turn := s.seq.state = .running ∧ s.seq.turnPhase = .drain
    let response := s.seq.state = .tripping ∧ s.trip.response = some .runout
    t.quench = released ∧
    t.seq = (if emptied ∧ turn then { s.seq with turnPhase := .stopping } else s.seq) ∧
    t.trip = (if emptied ∧ response then { s.trip with trailsSeen := true } else s.trip) ∧
    (emptied → turn ∨ s.seq.state = .runout ∨ response → stops)

/-! ### The power update -/

/-- R69: under inhibit, and in TRIPPING and TRIPPED, the update is a forced zero. R74: the output is 0 at once unless the
Sequencer is RUNNING with a HEAT or DWELL step Active. -/
def Obligations.NoHeatingNoPower : Prop :=
  (∀ s : State, s.power.inhibit = true ∨ s.seq.state = .tripping ∨ s.seq.state = .tripped →
     ∃ t, exec .powerUpdate s = .next t ∧
       t.power = { s.power with pOut := 0, ceiling := .none, underFloor := false, code := 0 } ∧
       t.zones.closed = s.zones.closed ∧ t.zones.nextNumber = s.zones.nextNumber ∧
       (∀ r, s.zones.openRec = some r → ∃ r', t.zones.openRec = some r' ∧ r'.pOut = 0 ∧
         r'.ceiling = .none ∧ r'.powered = r.powered) ∧
       (s.zones.openRec = none → t.zones.openRec = none) ∧ Keeps s t [.power, .zones, .meas]) ∧
  (∀ s : State, s.heatingZone = none →
     ∃ t, exec .powerUpdate s = .next t ∧ t.power.pOut = 0 ∧ t.power.code = 0 ∧
       t.power.ceiling = .none ∧ t.power.underFloor = false ∧
       t.power.enable = s.power.enable ∧ Keeps s t [.power, .zones, .meas])

/-- R72, R73: when the correction is taken and what it makes of the accumulator; at every other update the accumulator is held. -/
def Obligations.CorrectionLearns : Prop :=
  ∀ s : State,
    let floor := s.cfg.machine.floorShare * s.cfg.machine.pRated / 1000
    let taken : Int → Nat → Prop := fun m age =>
      s.power.inhibit = false ∧ s.seq.state = .running ∧
        s.meas.chan.invP.published = some m ∧ s.meas.chan.invP.age = some age ∧ age ≤ 2 ∧
        0 < s.power.pOut ∧ floor ≤ s.power.pOut ∧ s.power.ceiling = .none
    ∃ t, exec .powerUpdate s = .next t ∧
      (∀ m age, taken m age → t.power.acc = max (-12800) (min 12800 (s.power.acc +
        (((s.power.pOut : Int) - m) * 1000).tdiv s.power.pOut))) ∧
      ((∀ m age, ¬taken m age) → t.power.acc = s.power.acc)

/-- R78: the ceiling. R80: the ramp table, and what it makes of every update: the output never exceeds the P_max in force (R77: the
least of P_rated and the caps of the present LIMIT conditions) and changes by at most the ramp limit, except to zero. The output and
the status of a HEAT or DWELL update, from its demand (R74) through trim, correction, ceiling, floor and ramp (R75, R76, R78, R79,
R80, R81; that the ceiling status comes from stage 5 and the cap cut alone, under-floor or not, is log 21). Behind an update every
published value is one ms older (R122; that the ages count updates is log 4). -/
def Obligations.CeilingAndRamp : Prop :=
  (∀ pCorr pMax rated : Nat,
     (pCorr ≤ pMax → stage5 pCorr pMax rated = (pCorr, .none)) ∧
     (pMax < pCorr → pMax = rated → stage5 pCorr pMax rated = (pMax, .saturated)) ∧
     (pMax < pCorr → pMax < rated → stage5 pCorr pMax rated = (pMax, .limited))) ∧
  ((∀ value pPrev ramp pMax : Nat,
     stage7 value pPrev ramp pMax true = 0 ∧
     (value ≤ pPrev + ramp → pPrev ≤ value + ramp → stage7 value pPrev ramp pMax false = value) ∧
     (pPrev + ramp < value → stage7 value pPrev ramp pMax false = pPrev + ramp) ∧
     (value + ramp < pPrev → pPrev - ramp ≤ pMax →
       stage7 value pPrev ramp pMax false = pPrev - ramp) ∧
     (value + ramp < pPrev → pMax < pPrev - ramp → stage7 value pPrev ramp pMax false = 0)) ∧
   ∀ s : State,
     let m := s.cfg.machine
     let x := s.cfg.trip
     let rated := m.pRated
     let coil := if s.power.coilOver = true ∧ x.classCoilOver = .limit then
       x.capCoilOver * rated / 100 else rated
     let pyro := if s.power.pyroHigh = true ∧ x.classPyro = .limit then
       x.capPyro * rated / 100 else rated
     let top := min rated (min coil pyro)
     let last := s.power.pOut
     ∃ t, exec .powerUpdate s = .next t ∧ t.power.pOut ≤ top ∧
     (t.power.pOut = 0 ∨
       (t.power.pOut ≤ last + m.rampLimit ∧ last ≤ t.power.pOut + m.rampLimit)) ∧
     (∀ a base, s.power.inhibit = false → s.seq.state = .running → s.seq.active = some a →
       ((∃ p v e z q1 q2 n, a.step = .heat p v e z q1 q2 n ∧
           base = (roundDiv ((e : Int) * s.travel.speed.natAbs) 10000).toNat) ∨
         ∃ d z n, a.step = .dwell base d z n) →
       let trimmed := (roundDiv ((base : Int) * s.seq.trimT) 1000).toNat
       let corrected := (roundDiv ((trimmed : Int) * (1000 + t.power.acc.tdiv 64)) 1000).toNat
       let under := 0 < min corrected top ∧ min corrected top < m.floorShare * rated / 1000
       let value := if under then 0 else min corrected top
       let cut := value + m.rampLimit < last ∧ top < last - m.rampLimit
       t.power.pOut = (if under ∨ cut then 0
         else if last + m.rampLimit < value then last + m.rampLimit
         else if value + m.rampLimit < last then last - m.rampLimit else value) ∧
       (t.power.underFloor = true ↔ under) ∧
       t.power.ceiling = (if cut then .limited else if corrected ≤ top then .none
         else if top = rated then .saturated else .limited)) ∧
     t.power.code = setpointCode t.power.pOut rated ∧
     t.power.inhibit = s.power.inhibit ∧ t.power.enable = s.power.enable ∧
     t.power.readySeen = s.power.readySeen ∧ t.power.coilOver = s.power.coilOver ∧
     t.power.pyroHigh = s.power.pyroHigh ∧
     t.meas = { s.meas with
       chan := .ofFn fun c =>
         { s.meas.chan.get c with
           age := (s.meas.chan.get c).age.map fun a => min (a + 1) 65535 } } ∧
     Keeps s t [.power, .zones, .meas])

/-- R156: what an update's report adds to the zone being heated, and that it adds nothing elsewhere. R157: the same of a position
sample, under a HEAT step in RUNNING; the sample counts to the zone current before it, also where it ends the step or trips (log 8).
R107, R159: a sample with a ring's watch LOW behind its releases flags every zone whose extent, this sample included, holds the
ring's spray position (that it includes this sample is log 8). -/
def Obligations.UpdateCountedToZone : Prop :=
  (∀ (s t : State) (counts : Int) (rpm : Nat) (ref low high : Bool) (r r' : OpenRecord),
    exec (.positionSample counts rpm ref low high) s = .next t →
    s.zones.openRec = some r → t.zones.openRec = some r' →
    let before := s.travel.position
    let now := t.travel.position
    let dist := (now - before).natAbs
    let heated := 0 < r.pOut ∨ s.power.inhibit = true
    let rings := s.releasedAt now t.travel.speed t.travel.still
    r'.zones.length = r.zones.length ∧ ∀ (i : Nat) (e e' : ZoneEntry), r.zones[i]? = some e →
      r'.zones[i]? = some e' →
      let counted := s.seq.state = .running ∧ r.current = some ⟨i, true⟩
      e'.window = e.window ∧ e'.acc.energy = e.acc.energy ∧ e'.acc.peak = e.acc.peak ∧
      (e'.acc.quenchShort = true ↔ e.acc.quenchShort = true ∨
        ∃ (d : Dir) (k : Ring) (lo hi : Int), s.seq.passDir = some d ∧
          (rings.circuit.get k.circuit).watch = .low ∧ e'.acc.extent = some (lo, hi) ∧
          lo ≤ now - d.sign * (s.cfg.quench.offset.get k : Int) ∧
          now - d.sign * (s.cfg.quench.offset.get k : Int) ≤ hi) ∧
      e'.acc.maxTemp = e.acc.maxTemp ∧ e'.acc.saturated = e.acc.saturated ∧
      e'.acc.limited = e.acc.limited ∧
      e'.acc.length = (if counted ∧ heated then e.acc.length + dist else e.acc.length) ∧
      e'.acc.extent = (if counted ∧ heated then
          (match e.acc.extent with
            | some (lo, hi) => some (min lo (min before now), max hi (max before now))
            | none => some (min before now, max before now))
        else e.acc.extent) ∧
      e'.acc.satDist =
        (if counted ∧ r.ceiling = .saturated then e.acc.satDist + dist else e.acc.satDist) ∧
      e'.acc.limDist =
        (if counted ∧ r.ceiling = .limited then e.acc.limDist + dist else e.acc.limDist)) ∧
  ∀ (s : State) (r : OpenRecord), s.zones.openRec = some r →
    let pMeas := s.meas.chan.invP.published.getD 0
    ∃ t r', exec .powerUpdate s = .next t ∧ t.zones.openRec = some r' ∧
      r' = { r with
        pOut := t.power.pOut, ceiling := t.power.ceiling,
        powered := r.powered || decide (0 < t.power.pOut), zones := r'.zones } ∧
      (∀ c, r.current = some c → s.seq.state = .running → s.power.inhibit = false →
        ∀ (i : Nat) (e : ZoneEntry), r.zones[i]? = some e →
          r'.zones[i]? = some (if i = c.zone then
            { e with acc := { e.acc with
              energy := e.acc.energy + pMeas.toNat
              peak := max e.acc.peak t.power.pOut
              maxTemp := maxReading e.acc.maxTemp s.meas.chan.pyro.published
              saturated := e.acc.saturated || t.power.ceiling == .saturated
              limited := e.acc.limited || t.power.ceiling == .limited } }
            else e)) ∧
      (r.current = none ∨ s.seq.state ≠ .running ∨ s.power.inhibit = true → r'.zones = r.zones)

/-! ### Timers of the Sequencer -/

/-- The 10 ms tick: the scan clock counts, the step timer counts down, its last expiry ends a stationary step, a SPRAY with the
close of Q3 when SPRAY still owns it (R102); the sample that finds the carriage at the end ends a motion step. At a step end Next
becomes Active, a turn step waits in HOLD or drains the trails, and with Next empty the scan enters RUNOUT with COMPLETE, STARVED or
SUPPLY_LOST from the nominal end (R34, R35, R43, R44, R45, R55), or stands in HOLD while an admission is due (log 14). A setting
that finds its trail full trips (R96; the marks of the step have gone out: R33; that it is raised behind both rings' requests is log
23). That the scan clock counts these ticks is log 5, what a sample counts to the zone before the step end is log 8, that STATE
stands before RECORD is log 13. -/
def Obligations.StepTimerTicks : Prop :=
  (∀ (counts : Int) (rpm : Nat) (ref low high : Bool) (s t : State) (a : Admitted) (d : Dir),
    exec (.positionSample counts rpm ref low high) s = .next t → NoneRaised s t →
    s.seq.state = .running → s.seq.turnPhase = .none → s.seq.active = some a →
    a.step.isMotion = true → a.dir = some d → d.reached t.travel.position a.stop = true →
    HasTrailRoom s →
    let u := s.sampledAt t.travel
    let ended := { s.seq with active := none, stepTimer := none }
    (∀ b, s.seq.next = some b → b.turn = false → Activated u t b) ∧
    (∀ b, s.seq.next = some b → b.turn = true → t.quench.trailsEmpty = true →
      t.seq = ended ∧ t.travel.mode = .hold) ∧
    (∀ b p, s.seq.next = some b → b.turn = true → t.quench.trailsEmpty = false →
      s.seq.passDir = some p → s.travel.mode ≠ .disabled →
      t.seq = { ended with turnPhase := .drain } ∧ t.travel.mode = .drain ∧
        t.travel.dir = some p ∧
        t.travel.targetSpeed = s.seq.heatSpeed.getD s.cfg.machine.drainSpeed) ∧
    (s.seq.next = none → (∀ q ∈ s.seq.queue, q.step.isMark = true) → TrailInv s →
      EnteredRunout u t (if s.seq.programEnd then .complete else .starved) (some a.stop)) ∧
    (s.seq.next = none → (∃ q ∈ s.seq.queue, q.step.isMark = false) → s.quench.supplyReady = true →
      t.seq = ended ∧ t.travel.mode = .hold) ∧
    (s.seq.next = none → (∃ q ∈ s.seq.queue, q.step.isMark = false) →
      s.quench.supplyReady = false → TrailInv s → EnteredRunout u t .supplyLost (some a.stop))) ∧
  (∀ (s : State) (a b : Admitted), s.seq.stepTimer = some 1 → s.seq.state = .running →
    s.seq.active = some a →
    let ticked : State := { s with seq := { s.seq with scanClock := s.seq.scanClock.map (· + 1) } }
    let ended : State := { ticked with
      seq := { ticked.seq with active := none, stepTimer := none }
      quench := s.unsprayed, zones := s.zones.onOpen OpenRecord.noZone }
    (s.seq.next = some b → b.turn = true → s.quench.trailsEmpty = true →
      s.travel.mode ≠ .disabled →
      exec .stepTimerExpiry s = .next { ended with travel := s.travel.held }) ∧
    (∀ d, s.seq.next = some b → b.turn = true → s.quench.trailsEmpty = false →
      s.seq.passDir = some d → s.travel.mode ≠ .disabled →
      exec .stepTimerExpiry s = .next { ended with
        seq := { ended.seq with turnPhase := .drain }
        travel := { s.travel with
          mode := .drain, targetSpeed := s.seq.heatSpeed.getD s.cfg.machine.drainSpeed,
          stopPoint := none, dir := some d, finish := .none, decision := .none } }) ∧
    (s.seq.next = none → (∃ q ∈ s.seq.queue, q.step.isMark = false) →
      s.quench.supplyReady = true → s.travel.mode ≠ .disabled →
      exec .stepTimerExpiry s = .next { ended with travel := s.travel.held }) ∧
    (s.seq.next = none → (∃ q ∈ s.seq.queue, q.step.isMark = false) →
      s.quench.supplyReady = false → TrailInv s → HasTrailRoom s →
      ∃ t, exec .stepTimerExpiry s = .next t ∧
        EnteredRunout ticked t .supplyLost (some a.stop)) ∧
    (∀ r d e x, s.seq.next = some b → b.turn = false → b.step.settings? = some x →
      s.trip.latch = false → s.quench.trailFull = false →
      s.seq.passDir = some d → (s.quench.trail.get r).entries.length = 16 →
      (s.quench.trail.get r).entries.getLast? = some e → d.beyond b.start e.pos = true →
      x.get r = (if e.on then .off else .on) →
      let trims := s.seq.trimsAt b.step.zone?
      ∃ t, exec .stepTimerExpiry s = .next t ∧
        Latched { ticked with
          seq := { ticked.seq with
            active := some b, trimT := trims.1, trimS := trims.2.1, shadow := trims.2.2 }
          link := s.link.marked b.marks } t .trailFull none)) ∧
  ∀ s : State,
    (s.seq.stepTimer = none → exec .stepTimerExpiry s = .next { s with
      seq := { s.seq with scanClock := s.seq.scanClock.map (· + 1) } }) ∧
    (∀ n, s.seq.stepTimer = some n → 1 < n → exec .stepTimerExpiry s = .next { s with
      seq := { s.seq with
        scanClock := s.seq.scanClock.map (· + 1), stepTimer := some (n - 1) } }) ∧
    (∀ a b, s.seq.stepTimer = some 1 → s.seq.state = .running → s.seq.active = some a →
      s.seq.next = some b → b.turn = false → HasTrailRoom s →
      ∃ t, exec .stepTimerExpiry s = .next t ∧
        Activated { s with
          seq := { s.seq with scanClock := s.seq.scanClock.map (· + 1) }, quench := s.unsprayed } t
          b) ∧
    (∀ a, s.seq.stepTimer = some 1 → s.seq.state = .running → s.seq.active = some a →
      s.seq.next = none → (∀ q ∈ s.seq.queue, q.step.isMark = true) → TrailInv s →
      HasTrailRoom s →
      ∃ t, exec .stepTimerExpiry s = .next t ∧
        EnteredRunout { s with seq := { s.seq with scanClock := s.seq.scanClock.map (· + 1) } } t
          (if s.seq.programEnd then .complete else .starved) (some a.stop))

/-! ### The Measurement Sequencer -/

/-- A request timer's expiry: a request waits, is absorbed, or is granted at once; the timer starts its next period (R114, R116,
R117). The calibration timer's expiry: in ROTATE an eligible pointer channel is queued and the pointer moves on, one that is not
joins the owed set and the walk goes on to the first eligible channel, an owed one that is eligible goes first and leaves the owed
set; in ALL all nine channels are queued, with power on nothing; the timer restarts (R125, R126). A CALIBRATION of an URGENT-class
channel chosen with power on is withdrawn, owed in ROTATE, and the arbiter searches again (R126). The
arbiter: some request is chosen whenever one waits; the choice has the highest effective class held, comes first in the round from
that class's pointer, and is the SAMPLE before the CALIBRATION of its channel; a grant starts its burst, moves that pointer behind
it, and passes every other request by once, which promotes it at the relax limit (R114, R117, R118; that counts meet the limit
before the search as well is log 26). With the converter BUSY or nothing waiting there is no grant. -/
def Obligations.TimersQueueRequests : Prop :=
  (∀ (c : Channel) (s : State),
     let m := { s.meas with
       chan := s.meas.chan.set c { s.meas.chan.get c with timer := (s.cfg.measure.chan.get c).period } }
     let n := (s.cfg.measure.chan.get c).burst
     (∀ b, s.meas.converter = some b → (∀ w ∈ s.meas.waiting, ¬(w.channel = c ∧ w.kind = .sample)) →
       exec (.requestTimerExpiry c) s = .next { s with
         meas := { m with waiting := s.meas.waiting ++ [⟨c, .sample, 0, false⟩] } }) ∧
     (∀ b w, s.meas.converter = some b → w ∈ s.meas.waiting → w.channel = c → w.kind = .sample →
       exec (.requestTimerExpiry c) s = .next { s with meas := m }) ∧
     (s.meas.converter = none → s.meas.waiting = [] → 1 ≤ s.cfg.measure.relax →
       exec (.requestTimerExpiry c) s = .next { s with
         meas := { m with
           converter := some
             { channel := c, kind := .sample, length := n, left := n, sum := 0, rail := false }
           ptrUrgent := if c.cls = .urgent then c.next else s.meas.ptrUrgent
           ptrNormal := if c.cls = .normal then c.next else s.meas.ptrNormal
           ptrBackground := if c.cls = .background then c.next else s.meas.ptrBackground } })) ∧
  (∀ (s : State) (b : Burst), s.meas.converter = some b →
     let timed := { s.meas with calTimer := s.cfg.measure.calPeriod }
     let can : Channel → Prop := fun c => c.cls ≠ .urgent ∨ s.power.pOut = 0
     let add : Channel → List Waiting := fun c =>
       if s.meas.waiting.any fun w => w.channel == c && w.kind == .calibration then s.meas.waiting
       else s.meas.waiting ++ [⟨c, .calibration, 0, false⟩]
     (s.cfg.measure.calMode = .all → s.power.pOut ≠ 0 →
       exec .calibrationTimerExpiry s = .next { s with meas := timed }) ∧
     (s.cfg.measure.calMode = .rotate → (∀ c ∈ s.meas.owed, ¬can c) → can s.meas.calPointer →
       exec .calibrationTimerExpiry s = .next { s with
         meas := { timed with
           waiting := add s.meas.calPointer, calPointer := s.meas.calPointer.next } }) ∧
     (s.cfg.measure.calMode = .rotate → (∀ c ∈ s.meas.owed, ¬can c) → ¬can s.meas.calPointer →
       ∃ owed', exec .calibrationTimerExpiry s = .next { s with
         meas := { timed with waiting := add .flow1, calPointer := .flow2, owed := owed' } } ∧
         (∀ c, c ∈ owed' ↔ c ∈ s.meas.owed ∨ c.cls = .urgent ∧ s.meas.calPointer.num ≤ c.num) ∧
         ((s.meas.owed.map Channel.num).Pairwise (· < ·) →
           (owed'.map Channel.num).Pairwise (· < ·))) ∧
     (s.cfg.measure.calMode = .all → s.power.pOut = 0 →
       exec .calibrationTimerExpiry s = .next { s with
         meas := { timed with
           waiting := s.meas.waiting ++ (Channel.all.filter fun c =>
             !s.meas.waiting.any fun w => w.channel == c && w.kind == .calibration).map fun c =>
               ⟨c, .calibration, 0, false⟩ } }) ∧
     (∀ c rest, s.cfg.measure.calMode = .rotate → s.meas.owed = c :: rest → can c → c ∉ rest →
       exec .calibrationTimerExpiry s = .next { s with
         meas := { timed with waiting := add c, owed := rest } })) ∧
  (∀ (m : Meas) (c : MeasureCfg) (powerOn : Bool),
     (m.waiting ≠ [] → m.choose.isSome = true) ∧
     (m.converter.isSome = true ∨ m.waiting = [] → m.grant c powerOn = m)) ∧
  (∀ (m : Meas) (w : Waiting) (k : ChannelClass), m.choose = some (w, k) →
     let turn : Channel → Nat := fun c => (c.num + 9 - (m.pointer k).num) % 9
     w ∈ m.waiting ∧ w.cls = k ∧
     (k ≠ .urgent → ∀ x ∈ m.waiting, x.cls ≠ .urgent) ∧
     (k = .background → ∀ x ∈ m.waiting, x.cls ≠ .normal) ∧
     (∀ x ∈ m.waiting, x.cls = k → turn w.channel ≤ turn x.channel) ∧
     (w.kind = .calibration → ∀ x ∈ m.waiting, x.channel = w.channel → x.kind = .sample →
       x.cls ≠ k)) ∧
  ∀ (m : Meas) (c : MeasureCfg) (powerOn : Bool) (w : Waiting) (k : ChannelClass),
    m.converter = none →
    let aged : Meas := { m with
      waiting := m.waiting.map fun x =>
        { x with promoted := x.promoted || decide (c.relax ≤ x.passes) } }
    aged.choose = some (w, k) →
    (w.kind = .calibration → w.channel.cls = .urgent → powerOn = true →
      ∃ owed', m.grant c powerOn = ({ m with
          waiting := aged.waiting.filter fun x =>
            decide (¬(x.channel = w.channel ∧ x.kind = w.kind))
          owed := owed' } : Meas).grant c powerOn ∧
        (c.calMode = .all → owed' = m.owed) ∧
        (c.calMode = .rotate → ∀ x, x ∈ owed' ↔ x ∈ m.owed ∨ x = w.channel)) ∧
    ((w.kind = .sample ∨ w.channel.cls ≠ .urgent ∨ powerOn = false) →
    let n := if w.kind = .sample then (c.chan.get w.channel).burst else 16
    m.grant c powerOn = { m with
      converter := some
        { channel := w.channel, kind := w.kind, length := n, left := n, sum := 0, rail := false }
      waiting := (aged.waiting.filter fun x =>
          decide (¬(x.channel = w.channel ∧ x.kind = w.kind))).map fun x =>
        { x with
          passes := x.passes + 1,
          promoted := x.promoted || decide (c.relax ≤ x.passes + 1) }
      ptrUrgent := if k = .urgent then w.channel.next else m.ptrUrgent
      ptrNormal := if k = .normal then w.channel.next else m.ptrNormal
      ptrBackground := if k = .background then w.channel.next else m.ptrBackground })

/-- A conversion's code is summed; the last one of a good INV_P burst publishes the sample value with age 0, of a calibration keeps
or refuses the offset; with no burst nothing happens (R114, R119, R120, R122, R127). Behind the last conversion's result the waiting
requests are granted from, with the power as it then is (R114, R117; the grant is that of TimersQueueRequests). Any other sample
burst changes its channel's record as a good or a faulted sample does and hands what is published to the owner; a SENSOR_FAULT newly
present behind that (log 24) flags the open record in the WARN class and is a latching or a further trip in the TRIP class (R115,
R121, R123, R124, R135, R158; what a faulted sample without a good value before it publishes is log 29, that STATE stands before
RECORD is log 13, that a carriage found stopped stays in STOPPING log 28). The owners' tests, each raise by its class: COIL_OVERCURRENT, PYRO_HIGH, the flow watches, Supply Ready with its
SUPPLY_LOST in an empty RUNNING, QUENCH_TEMP_HIGH and the coil water timer (R25, R86, R87, R104, R105, R108, R132, R133, R150). -/
def Obligations.ConversionsComplete : Prop :=
  let granted : State → State := fun u =>
    { u with meas := u.meas.grant u.cfg.measure (decide (u.power.pOut ≠ 0)) }
  (∀ (s : State) (code : Nat) (b : Burst), s.meas.converter = some b → b.left = 1 →
    b.kind = .sample →
    let rail := b.rail || code == 0 || code == 65535
    let r := s.meas.chan.get b.channel
    let c := s.cfg.measure.chan.get b.channel
    let good := rail = false ∧ r.calibrated = true
    let value := roundDiv ((roundDiv (b.sum + code) b.length - r.offset - 2048) * c.scale) 1000
    let held := min (r.held + 1) 255
    let r' : ChannelRec :=
      if good then { r with
        published := some value, lastGood := some value, age := some 0, held := 0,
        sensorFault := false }
      else match c.mode with
        | .hold => { r with
            published := r.lastGood.or r.published, held := held,
            sensorFault := r.sensorFault || decide (s.cfg.measure.stale < held) }
        | .substitute => { r with
            published := some c.substitute, held := 0, sensorFault := false }
        | .fault => { r with published := r.lastGood.or r.published, sensorFault := true }
    let given : Option Int := if good then some value
      else if c.mode = .substitute then some c.substitute else r.lastGood
    let taken := { s with
      meas := { s.meas with converter := none, chan := s.meas.chan.set b.channel r' } }
    let told : State := match given with | some v => taken.publish b.channel v | none => taken
    ((r'.sensorFault = true → r.sensorFault = true) →
      exec (.conversionComplete code) s = .next (granted told)) ∧
    (r.sensorFault = false → r'.sensorFault = true → s.cfg.trip.classSensor = .warn →
      exec (.conversionComplete code) s = .next (granted { told with zones := told.warned })) ∧
    (r.sensorFault = false → r'.sensorFault = true → s.cfg.trip.classSensor = .trip →
      ∃ t, exec (.conversionComplete code) s = .next (granted t) ∧
        (told.trip.latch = false → Latched told t .sensorFault (some b.channel)) ∧
        (told.trip.latch = true → FurtherTrip told t .sensorFault))) ∧
  (∀ (s : State) (v : Int),
    let p := s.power
    let x := s.cfg.trip
    let high := (x.iMax : Int) < v ∨ (p.coilOver = true ∧ ((x.iMax * 95 / 100 : Nat) : Int) < v)
    let hot := (x.tMax : Int) < v ∨ (p.pyroHigh = true ∧ (x.tMax : Int) - 20 < v)
    let warm := (x.qTempLimit : Int) < v ∨
      (s.trip.quenchTempHigh = true ∧ (x.qTempLimit : Int) - 2 < v)
    (¬high ∨ p.coilOver = true ∨ x.classCoilOver = .limit →
      s.publish .coilI v = { s with power := { p with coilOver := decide high } }) ∧
    (high → p.coilOver = false → x.classCoilOver = .trip → s.trip.latch = false →
      Latched s (s.publish .coilI v) .coilOvercurrent none ∧
        (s.publish .coilI v).power.coilOver = true) ∧
    (¬hot ∨ p.pyroHigh = true ∨ x.classPyro = .limit →
      s.publish .pyro v = { s with power := { p with pyroHigh := decide hot } }) ∧
    (hot → p.pyroHigh = false → x.classPyro = .trip → s.trip.latch = false →
      Latched s (s.publish .pyro v) .pyroHigh none ∧
        (s.publish .pyro v).power.pyroHigh = true) ∧
    (hot → p.pyroHigh = false → x.classPyro = .warn →
      s.publish .pyro v = { s with power := { p with pyroHigh := true }, zones := s.warned }) ∧
    (¬warm ∨ s.trip.quenchTempHigh = true →
      s.publish .qTemp v = { s with
        trip := { s.trip with quenchTempHigh := decide warm } }) ∧
    (warm → s.trip.quenchTempHigh = false → x.classQTemp = .trip → s.trip.latch = false →
      Latched s (s.publish .qTemp v) .quenchTempHigh none ∧
        (s.publish .qTemp v).trip.quenchTempHigh = true) ∧
    (warm → s.trip.quenchTempHigh = false → x.classQTemp = .warn →
      s.publish .qTemp v = { s with
        trip := { s.trip with quenchTempHigh := true }, zones := s.warned }) ∧
    s.publish .invP v = s ∧
    s.publish .coilWater v = { s with
      trip := if x.waterMin ≠ 0 ∧ v < x.waterMin then
          { s.trip with coilWaterTimer := s.trip.coilWaterTimer || !s.trip.coilWaterLow }
        else { s.trip with coilWaterTimer := false, coilWaterLow := false } }) ∧
  (∀ (s : State) (v : Int) (ch : Channel) (k : Circuit),
    (ch, k) ∈ [(Channel.flow1, Circuit.q1), (.flow2, .q2), (.flow3, .q3)] →
    let w := s.quench.circuit.get k
    let least := s.cfg.quench.flowMin.get k
    let enough := least = 0 ∨ (least : Int) ≤ v
    s.publish ch v = { s with
      quench := { s.quench with
        circuit := s.quench.circuit.set k (match w.watch with
          | .closed => w
          | .proving => if enough then { w with watch := .proved, proving := none } else w
          | .proved => if enough then { w with dropout := none }
            else { w with dropout := some (w.dropout.getD s.cfg.quench.dropout) }
          | .low => if enough then { w with watch := .proved } else w) } }) ∧
  (∀ (s : State) (v : Int),
    let now := if s.quench.supplyReady then decide ((s.cfg.quench.offThreshold : Int) ≤ v)
      else decide ((s.cfg.quench.onThreshold : Int) ≤ v)
    (now = s.quench.supplyReady ∨ (s.vacant = true → s.seq.next = none →
        if onlyMarks s.seq.queue = true then s.seq.programEnd = false else now = true) →
      s.publish .qPress v = { s with quench := { s.quench with supplyReady := now } }) ∧
    (now = false → s.quench.supplyReady = true → s.vacant = true → s.seq.next = none →
      onlyMarks s.seq.queue = false → TrailInv s → HasTrailRoom s →
      EnteredRunout { s with quench := { s.quench with supplyReady := false } }
        (s.publish .qPress v) .supplyLost none)) ∧
  ∀ (s : State) (code : Nat),
    (s.meas.converter = none → exec (.conversionComplete code) s = .next s) ∧
    ∀ b, s.meas.converter = some b →
      let rail := b.rail || code == 0 || code == 65535
      let sum := b.sum + code
      let r := s.meas.chan.get b.channel
      let value := roundDiv ((roundDiv sum b.length - r.offset - 2048) *
        (s.cfg.measure.chan.get b.channel).scale) 1000
      let offset := roundDiv sum 16 - 2048
      (1 < b.left → exec (.conversionComplete code) s = .next { s with
        meas := { s.meas with
          converter := some { b with sum := sum, left := b.left - 1, rail := rail } } }) ∧
      (b.left = 1 → b.kind = .sample → b.channel = .invP → rail = false → r.calibrated = true →
        exec (.conversionComplete code) s = .next (granted { s with
          meas := { s.meas with
            converter := none
            chan := s.meas.chan.set .invP { r with
              published := some value, lastGood := some value, age := some 0, held := 0,
              sensorFault := false } } })) ∧
      (b.left = 1 → b.kind = .calibration → rail = false → offset.natAbs ≤ 512 →
        exec (.conversionComplete code) s = .next (granted { s with
          meas := { s.meas with
            converter := none
            chan := s.meas.chan.set b.channel { r with offset := offset, calibrated := true } } })) ∧
      (b.left = 1 → b.kind = .calibration → rail = true ∨ 512 < offset.natAbs →
        exec (.conversionComplete code) s = .next (granted { s with
          meas := { s.meas with
            converter := none
            chan := s.meas.chan.set b.channel { r with calibrated := false } } }))

/-! ### Timers of the Quench and Trip Units, inputs -/

/-- Proving and dropout expiries: nothing unless the watch stands where the timer belongs; under the WARN class the watch becomes
LOW, a ring's loss flags QUENCH_SHORT on the zones over its spray position (R107, R159), the WARN flag goes to the zone being heated
or to the record as a whole (R135, R158), and nothing else changes (R104, R105). Flood and pump idle timers: the flood's expiry
closes Q3, completes a STOP_FLOOD response whose carriage has stopped, and starts a put-off idle timer afresh; the idle expiry stops
the pump or is put off by a flood (R103, R109, R110, R142, R144; the mark that an idle expiry was put off is log 22). -/
def Obligations.QuenchTimers : Prop :=
  (∀ (s : State) (k : Circuit),
     let w := s.quench.circuit.get k
     let short : State := { s with
       zones := match k with
         | .q1 => s.shorted .q1
         | .q2 => s.shorted .q2
         | .q3 => s.zones }
     let low : State := { s with
       quench := { s.quench with
         circuit := s.quench.circuit.set k
           { w with watch := .low, proving := none, dropout := none } }
       zones := short.warned }
     (w.watch ≠ .proving ∨ w.proving = none → exec (.provingTimerExpiry k) s = .next s) ∧
     (w.watch ≠ .proved ∨ w.dropout = none → exec (.dropoutTimerExpiry k) s = .next s) ∧
     (w.watch = .proving → w.proving.isSome = true → s.cfg.trip.classFlow.get k = .warn →
       exec (.provingTimerExpiry k) s = .next low) ∧
     (w.watch = .proved → w.dropout.isSome = true → s.cfg.trip.classFlow.get k = .warn →
       exec (.dropoutTimerExpiry k) s = .next low)) ∧
  (∀ s : State,
     let closed := { s.quench with
       circuit := { s.quench.circuit with q3 := .closed }, q3Owner := .none, floodTimer := none }
     let waits := s.seq.state = .tripping ∧ s.trip.response = some .stopFlood
     (s.quench.floodTimer = none → exec .floodTimerExpiry s = .next s) ∧
     (s.quench.floodTimer.isSome = true → ¬waits → s.quench.idleDeferred = false →
       exec .floodTimerExpiry s = .next { s with quench := closed }) ∧
     (s.quench.floodTimer.isSome = true → ¬waits → s.quench.idleDeferred = true →
       exec .floodTimerExpiry s = .next { s with
         quench := closed.idling s.cfg.quench.pumpIdle }) ∧
     (s.quench.floodTimer.isSome = true → waits → s.trip.stoppedSeen = true →
       ∃ t, exec .floodTimerExpiry s = .next t ∧ t.seq.state = .tripped ∧
         t.quench.circuit.q3 = .closed ∧ t.quench.q3Owner = .none ∧
         t.travel.spindleCommand = 0 ∧ t.zones.openRec = none ∧
         t.trip.record = s.trip.record ∧ t.seq.scanClock = none ∧
         Keeps s t [.seq, .travel, .quench, .trip, .zones, .store, .link]) ∧
     (s.quench.floodTimer.isSome = true → waits → s.trip.stoppedSeen = false →
       s.quench.idleDeferred = false →
       exec .floodTimerExpiry s = .next { s with
         quench := closed, trip := { s.trip with floodSeen := true } }) ∧
     (s.quench.idleTimer = none → exec .pumpIdleTimerExpiry s = .next s) ∧
     (s.quench.idleTimer.isSome = true → s.quench.q3Owner = .flood →
       exec .pumpIdleTimerExpiry s = .next { s with
         quench := { s.quench with idleTimer := none, idleDeferred := true } }) ∧
     (s.quench.idleTimer.isSome = true → s.quench.q3Owner ≠ .flood →
       exec .pumpIdleTimerExpiry s = .next { s with
         quench := { s.quench with pump := false, idleTimer := none, idleDeferred := false } }))

/-- Input changes and expiries that raise nothing change the level and what follows from it alone (R61, R65, R84, R85, R132,
R134). -/
def Obligations.InputsWithoutRaise : Prop :=
  ∀ s : State,
    exec (.faultInputChange false) s =
      .next { s with inputs := { s.inputs with fault := false } } ∧
    exec (.emergencyStopInput false) s =
      .next { s with inputs := { s.inputs with estop := false } } ∧
    exec (.readyInputChange true) s = .next { s with
      inputs := { s.inputs with ready := true }
      power := { s.power with readySeen := s.power.readySeen || s.power.enable } } ∧
    (s.power.enable = false ∨ s.power.readySeen = false →
      exec (.readyInputChange false) s =
        .next { s with inputs := { s.inputs with ready := false } }) ∧
    exec (.encoderFaultInput false) s = .next { s with
      inputs := { s.inputs with encoder := false }
      travel := { s.travel with encoderFault := false } } ∧
    (s.trip.coilWaterTimer = false → exec .coilWaterTimerExpiry s = .next s) ∧
    (s.travel.lowCount ≠ 100 ∨ s.travel.spindleLow = true → exec .lowCountReached s = .next s)

/-! ### The part's own steps -/

/-- The STOPPED report in each state that waits for it: homing ends with or without the switch, POSITIONING ends, a turn returns, a
run-out completes, the STOP, RUNOUT and STOP_FLOOD responses reach TRIPPED, the last with its flood complete, and a run-out or a
RUNOUT response that came out of a RETURN drains its trails now (R27, R44, R46, R51, R62, R140, R141, R142, R144; that STATE stands
before RECORD is log 13). -/
def Obligations.StoppedReports : Prop :=
  ∀ s : State,
    let held := { s.travel with
      mode := .hold, targetSpeed := 0, stopPoint := none, dir := none, finish := .none,
      decision := .none }
    let due := s.travel.mode = .stopping ∧ s.travel.planSpeed = 0 ∧ s.travel.still = 20
    let shift := s.cfg.machine.reference - s.travel.position
    let drained : Dir → State := fun d => { s with
      travel := { held with
        mode := .drain, targetSpeed := s.seq.heatSpeed.getD s.cfg.machine.drainSpeed,
        dir := some d } }
    let told : State := { s with
      travel := held
      trip := { s.trip with stoppedSeen := true, trailsSeen := s.quench.trailsEmpty } }
    (¬due → exec .stoppingComplete s = .next s) ∧
    (due → s.seq.state = .homing → s.travel.switchFound = true →
      exec .stoppingComplete s = .next { s with
        seq := { s.seq with state := .idle }
        travel := { held with
          position := s.cfg.machine.reference, history := s.travel.history.map (· + shift),
          plan := s.travel.plan + shift * 1000, referenced := true }
        link := s.link.stated .idle .homed }) ∧
    (due → s.seq.state = .homing → s.travel.switchFound = false →
      exec .stoppingComplete s = .next { s with
        seq := { s.seq with state := .unreferenced }, travel := held
        link := s.link.stated .unreferenced
          (if s.seq.stopTaken then .stopped else .homeFailed) }) ∧
    (due → s.seq.state = .positioning → exec .stoppingComplete s = .next { s with
      seq := { s.seq with state := .idle }, travel := held
      link := s.link.stated .idle .stopped }) ∧
    (∀ a, due → s.seq.state = .running → s.seq.turnPhase = .stopping → s.seq.next = some a →
      exec .stoppingComplete s = .next { s with
        seq := { s.seq with turnPhase := .return }
        travel := { held with
          mode := .target, targetSpeed := s.cfg.machine.returnSpeed, stopPoint := some a.start,
          dir := (if s.travel.position < a.start then some .forward
            else if a.start < s.travel.position then some .reverse else none),
          arrivalSeen := false } }) ∧
    (∀ r, due → s.seq.state = .runout → s.quench.trailsEmpty = true →
      s.zones.openRec = some r →
      ∃ t pr, exec .stoppingComplete s = .next t ∧ t.travel = held ∧
        t.seq = { s.seq with
          state := .idle, passDir := none, scanClock := none, segClosed := false } ∧
        ClosedFrom r pr (s.seq.lastEnd.getD .complete) (s.seq.scanClock.getD 0) none ∧
        t.zones = { s.zones with closed := s.zones.closed ++ [pr], openRec := none } ∧
        t.quench = s.quench.idling s.cfg.quench.pumpIdle ∧
        t.store = { s.store with inUse := none } ∧
        t.link = (s.link.stated .idle (.scanEnd (s.seq.lastEnd.getD .complete))).placeNotice
          (.record r.number) ∧ Keeps s t [.seq, .travel, .quench, .zones, .store, .link]) ∧
    (∀ d, due → s.quench.trailsEmpty = false → s.seq.passDir = some d →
      s.seq.state = .runout ∨ s.seq.state = .tripping ∧ s.trip.response = some .runout →
      exec .stoppingComplete s = .next (drained d)) ∧
    (due → s.seq.state = .tripping →
      s.trip.response = some .stop ∨
        s.trip.response = some .runout ∧ s.quench.trailsEmpty = true ∨
        s.trip.response = some .stopFlood ∧ s.trip.floodSeen = true →
      ∃ t, exec .stoppingComplete s = .next t ∧ EnteredTripped told t) ∧
    (due → s.seq.state = .tripping → s.trip.response = some .stopFlood →
      s.trip.floodSeen = false → exec .stoppingComplete s = .next told)

/-- ARRIVED ends a MOVE-TO in HOLD at its target (R22, R63; that the plan is set on the target is log 25); RETURNED and the stopped
condition after a stop with empty trails activate the turn step (R43, R44, R51); not due, they change nothing (that an arrival
seen is marked until ARRIVED is log 17; an event not due still comes: log 2). -/
def Obligations.ArrivalsAndTurns : Prop :=
  ∀ s : State,
    (∀ p, s.travel.arrivalSeen = true → s.seq.state = .positioning → s.travel.mode = .target →
      s.travel.stopPoint = some p → exec .arrived s = .next { s with
        seq := { s.seq with state := .idle }
        travel := { s.travel with
          mode := .hold, plan := p * 1000, planSpeed := 0, targetSpeed := 0, stopPoint := none,
          dir := none, finish := .none, decision := .none, arrivalSeen := false }
        link := s.link.stated .idle .arrived }) ∧
    (¬(s.travel.arrivalSeen = true ∧ s.seq.state = .positioning ∧ s.travel.mode = .target ∧
        ∃ p, s.travel.stopPoint = some p) → exec .arrived s = .next s) ∧
    (∀ a p, s.seq.state = .running → s.seq.turnPhase = .return → s.travel.mode = .target →
      s.travel.planSpeed = 0 → s.travel.still = 20 → s.travel.stopPoint = some p →
      s.travel.plan = p * 1000 → s.seq.next = some a → HasTrailRoom s →
      ∃ t, exec .returned s = .next t ∧ Activated s t a) ∧
    (¬(s.seq.state = .running ∧ s.seq.turnPhase = .return ∧ s.travel.mode = .target ∧
        s.travel.planSpeed = 0 ∧ s.travel.still = 20 ∧ s.seq.next.isSome = true ∧
        ∃ p, s.travel.stopPoint = some p ∧ s.travel.plan = p * 1000) →
      exec .returned s = .next s) ∧
    (∀ a, s.seq.state = .running → s.seq.active = none → s.seq.turnPhase = .none →
      s.seq.next = some a → a.turn = true → s.quench.trailsEmpty = true → s.travel.still = 20 →
      ∃ t, exec .turnStoppedActivation s = .next t ∧ Activated s t a) ∧
    (¬(s.seq.state = .running ∧ s.seq.active = none ∧ s.seq.turnPhase = .none ∧
        s.quench.trailsEmpty = true ∧ s.travel.still = 20 ∧
        ∃ a, s.seq.next = some a ∧ a.turn = true) →
      exec .turnStoppedActivation s = .next s)

/-- The move to RUNNING when Supply Ready, READY and the spindle hold together, with the step in Next Active at once, with Active
empty, or with a program at its end and so into RUNOUT with COMPLETE; otherwise nothing (R20, R25, R33, R45, R65; that STATE stands
before RECORD in a run-out complete at once is log 13). -/
def Obligations.EntersRunning : Prop :=
  ∀ s : State,
    let spindle := s.travel.spindleCommand = 0 ∨
      ((s.travel.rpm : Int) - s.travel.spindleCommand).natAbs * 10 ≤ s.travel.spindleCommand
    let due := s.seq.state = .prestart ∧ s.quench.supplyReady = true ∧ s.inputs.ready = true ∧
      spindle
    let entered : State := { s with
      seq := { s.seq with state := .running, prestartTimer := none }
      link := s.link.stated .running .ready }
    (¬due → exec .enterRunning s = .next s) ∧
    (∀ a, due → s.seq.next = some a → a.turn = false → HasTrailRoom s →
      ∃ t, exec .enterRunning s = .next t ∧ Activated entered t a) ∧
    (due → s.seq.next = none →
      (s.seq.programEnd = false ∨ ∃ q ∈ s.seq.queue, q.step.isMark = false) →
      s.travel.mode = .hold →
      exec .enterRunning s = .next { entered with
        travel := { s.travel with
          targetSpeed := 0, stopPoint := none, dir := none, finish := .none, decision := .none } }) ∧
    (due → s.seq.next = none → s.seq.active = none → s.seq.turnPhase = .none →
      s.seq.programEnd = true → (∀ q ∈ s.seq.queue, q.step.isMark = true) →
      s.travel.mode = .hold → TrailInv s → HasTrailRoom s →
      ∃ t, exec .enterRunning s = .next t ∧ EnteredRunout entered t .complete none)

/-- ADMISSION: the first non-MARK step goes to Next with its nominal start and end, its direction, its turn mark and the marks ahead of
it, and a HELD queue that falls to the low mark is RELEASED with GO; a source step that comes to the head acts; in an empty RUNNING
the step becomes Active at once, a turn step waiting or draining first; a step that fails a check ends the scan with
PROGRAM_ERROR; not due, it changes nothing (R3, R25, R29, R30, R31, R32, R38, R39, R43; that the SPLICE notice stands before GO and
STATE before RECORD is log 13, that a source step acts whatever the source is log 20). -/
def Obligations.AdmissionFillsNext : Prop :=
  ∀ s : State,
    (s.seq.next.isSome = true ∨ s.quench.supplyReady = false ∨ onlyMarks s.seq.queue = true ∨
      (s.seq.state ≠ .prestart ∧ s.seq.state ≠ .running) → exec .admission s = .next s) ∧
    ∀ q rest, s.seq.state = .prestart ∨ s.seq.state = .running → s.seq.next = none →
      s.quench.supplyReady = true → firstNonMark s.seq.queue = some (q, rest) →
      q.step.isSource = false →
      let start := s.seq.nominal
      let stop := q.step.stop?.getD start
      let dir : Option Dir := if start < stop then some .forward
        else if stop < start then some .reverse else none
      let fits := (q.step.isMotion = true → start ≠ stop ∧ s.cfg.machine.softLow ≤ stop ∧
          stop ≤ s.cfg.machine.softHigh) ∧
        ∀ z, q.step.zone? = some z → z < s.seq.zoneCount
      let falls := s.seq.flow = .held ∧ rest.length ≤ s.cfg.flow.low
      let admitted : Admitted :=
        { step := q.step, origin := q.origin, index := q.index, start := start, stop := stop,
          dir := dir,
          turn := decide (dir = some .forward ∧ s.seq.passDir = some .reverse ∨
            dir = some .reverse ∧ s.seq.passDir = some .forward)
          marks := headMarks s.seq.queue }
      let taken := { s with
        seq := { s.seq with
          queue := rest
          next := some admitted
          nominal := stop
          passDir := s.seq.passDir.or dir
          flow := if falls then .released else s.seq.flow }
        link := if falls then s.link.placeNotice (.flow true) else s.link }
      let quiet := ∀ q' rest', firstNonMark rest = some (q', rest') → q'.step.isSource = false
      (fits → s.vacant = false → quiet → exec .admission s = .next taken) ∧
      (fits → s.vacant = false → ∀ marks q' rest', rest = marks ++ q' :: rest' →
        (∀ m ∈ marks, m.step.isMark = true) → q'.step.isSource = true →
        exec .admission s = .next (taken.sourced (marks ++ rest') q'.step)) ∧
      (fits → s.vacant = true → quiet → admitted.turn = false → HasTrailRoom s →
        ∃ t, exec .admission s = .next t ∧ Activated taken t admitted) ∧
      (fits → s.vacant = true → admitted.turn = false → HasTrailRoom s →
        ∀ marks q' rest', rest = marks ++ q' :: rest' →
        (∀ m ∈ marks, m.step.isMark = true) → q'.step.isSource = true →
        ∃ t, exec .admission s = .next t ∧
          Activated (taken.sourced (marks ++ rest') q'.step) t admitted) ∧
      (fits → s.vacant = true → quiet → admitted.turn = true →
        ∃ t, exec .admission s = .next t ∧ t.seq = { taken.seq with
            turnPhase := if s.quench.trailsEmpty then .none else .drain } ∧
          Keeps taken t [.seq, .travel]) ∧
      (¬fits → s.seq.state = .prestart → QueueInv s → s.zones.openRec.isSome = true →
        ∃ t, exec .admission s = .next t ∧ LeftPrestart s t .programError s.link) ∧
      (¬fits → s.seq.state = .running → TrailInv s → HasTrailRoom s →
        ∃ t, exec .admission s = .next t ∧ EnteredRunout s t .programError none)

/-- LOADER_APPEND: the step at the loader's index joins the tail with origin PROFILE, the loader moves on, to AT_SPLICE behind a
SPLICE and to EXHAUSTED with program end behind the last step; not RUNNING, without room or outside PRESTART and RUNNING it changes
nothing (R17, R28, R36). A SPLICE by LOADER_APPEND, and a RESUME or END by STEP, that finds only marks before it comes to the head
and acts there (R29, R38; that it does so whatever the source is log 20, that the SPLICE notice stands before GO and STATE before
RECORD is log 13). In an empty RUNNING a step that comes without Supply Ready ends the scan with SUPPLY_LOST, and a queue of marks
with the program at its end, with COMPLETE (R25, R45). -/
def Obligations.LoaderAndSourceSteps : Prop :=
  (∀ s : State,
    ((∀ l, s.seq.loader = some l → l.state ≠ .running) ∨ 32 ≤ s.seq.queue.length ∨
      (s.seq.state ≠ .prestart ∧ s.seq.state ≠ .running) → exec .loaderAppend s = .next s) ∧
    ∀ (l : Loader) (step : ScanStep), s.seq.state = .prestart ∨ s.seq.state = .running →
      s.seq.loader = some l → l.state = .running → s.seq.queue.length < 32 →
      s.store.stepAt l.page l.index = some step →
      let last := l.index + 1 = s.store.stepCount l.page ∧ ∀ n, step ≠ .splice n
      let joined := s.seq.queue ++ [⟨step, .profile, l.index⟩]
      let moved : LoaderState → State := fun st => { s with
        seq := { s.seq with
          queue := joined
          loader := some ⟨l.page, l.index + 1, st⟩
          programEnd := if st = .exhausted then true else s.seq.programEnd } }
      let quiet := ∀ q rest, firstNonMark joined = some (q, rest) → q.step.isSource = false
      let after : LoaderState := match step with
        | .splice _ => .atSplice
        | _ => if l.index + 1 = s.store.stepCount l.page then .exhausted else .running
      (s.vacant = false → quiet → (∃ n, step = .splice n) →
        exec .loaderAppend s = .next (moved .atSplice)) ∧
      (s.vacant = false → quiet → last → exec .loaderAppend s = .next (moved .exhausted)) ∧
      (s.vacant = false → quiet → (∀ n, step ≠ .splice n) → ¬last →
        exec .loaderAppend s = .next (moved .running)) ∧
      (∀ n, s.vacant = false → step = .splice n → (∀ q ∈ s.seq.queue, q.step.isMark = true) →
        exec .loaderAppend s = .next ((moved .atSplice).sourced s.seq.queue step)) ∧
      (s.vacant = true → s.seq.next = none → quiet → TrailInv s → HasTrailRoom s →
        ((∃ q ∈ joined, q.step.isMark = false) → s.quench.supplyReady = false →
          ∃ t, exec .loaderAppend s = .next t ∧
            EnteredRunout (moved after) t .supplyLost none) ∧
        ((∀ q ∈ joined, q.step.isMark = true) → last →
          ∃ t, exec .loaderAppend s = .next t ∧
            EnteredRunout (moved .exhausted) t .complete none))) ∧
  ∀ (tag : Byte) (s : State) (r : StepRecord) (step : ScanStep), Taken s tag →
    s.seq.source = .link → s.seq.queue.length < 32 → ScanStep.ofRecord r = some step →
    s.seq.segClosed = false →
    let reply := s.link.placeReply ⟨0x89#8, tag, .ok, be2 s.seq.linkCount⟩
    let joins := (step = .resume ∧ s.seq.segKind = some .splice) ∨
      (step = .finish ∧ s.seq.segKind = some .stream)
    let closed : State := { s with
      seq := { s.seq with
        linkCount := (s.seq.linkCount + 1) % 65536, segClosed := true, flow := .flowing }
      link := reply }
    let holds := s.seq.flow ≠ .held ∧ s.cfg.flow.high ≤ s.seq.queue.length + 1
    let joined : State := { s with
      seq := { s.seq with
        queue := s.seq.queue ++ [⟨step, .link, s.seq.linkCount⟩]
        linkCount := (s.seq.linkCount + 1) % 65536 }
      link := if holds then reply.placeNotice (.flow false) else reply }
    (joins → s.vacant = false → (∀ q ∈ s.seq.queue, q.step.isMark = true) →
      exec (.step tag r) s = .next (closed.sourced s.seq.queue step)) ∧
    (step = .finish → s.seq.segKind = some .stream → s.vacant = true → s.seq.next = none →
      (∀ q ∈ s.seq.queue, q.step.isMark = true) → TrailInv s → HasTrailRoom s →
      ∃ t, exec (.step tag r) s = .next t ∧
        EnteredRunout (closed.sourced s.seq.queue step) t .complete none) ∧
    (step.isSource = false → step.isMark = false → s.vacant = true → s.seq.next = none →
      (∀ q ∈ s.seq.queue, q.step.isMark = true) → s.quench.supplyReady = false → TrailInv s →
      HasTrailRoom s →
      ∃ t, exec (.step tag r) s = .next t ∧ EnteredRunout joined t .supplyLost none)
end

