-- ==== Sys2Proof/Laws/State.lean ====
section
/-! SUPPORT. One lemma for each field of State under each update of a block: the updated block is the function of the old one, every
other field is as it was. All hold by unfolding, and are simp lemmas, so that no later proof unfolds an update. -/

namespace Sys2Proof.Machine

/-! ### onSeq -/

@[simp] theorem State.onSeq_cfg (s : State) (f : Seq → Seq) : (s.onSeq f).cfg = s.cfg := rfl
@[simp] theorem State.onSeq_seq (s : State) (f : Seq → Seq) : (s.onSeq f).seq = f s.seq := rfl
@[simp] theorem State.onSeq_travel (s : State) (f : Seq → Seq) : (s.onSeq f).travel = s.travel := rfl
@[simp] theorem State.onSeq_power (s : State) (f : Seq → Seq) : (s.onSeq f).power = s.power := rfl
@[simp] theorem State.onSeq_quench (s : State) (f : Seq → Seq) : (s.onSeq f).quench = s.quench := rfl
@[simp] theorem State.onSeq_meas (s : State) (f : Seq → Seq) : (s.onSeq f).meas = s.meas := rfl
@[simp] theorem State.onSeq_trip (s : State) (f : Seq → Seq) : (s.onSeq f).trip = s.trip := rfl
@[simp] theorem State.onSeq_zones (s : State) (f : Seq → Seq) : (s.onSeq f).zones = s.zones := rfl
@[simp] theorem State.onSeq_store (s : State) (f : Seq → Seq) : (s.onSeq f).store = s.store := rfl
@[simp] theorem State.onSeq_link (s : State) (f : Seq → Seq) : (s.onSeq f).link = s.link := rfl
@[simp] theorem State.onSeq_inputs (s : State) (f : Seq → Seq) : (s.onSeq f).inputs = s.inputs := rfl
@[simp] theorem State.onSeq_pending (s : State) (f : Seq → Seq) : (s.onSeq f).pending = s.pending := rfl

/-! ### onTravel -/

@[simp] theorem State.onTravel_cfg (s : State) (f : Travel → Travel) : (s.onTravel f).cfg = s.cfg := rfl
@[simp] theorem State.onTravel_seq (s : State) (f : Travel → Travel) : (s.onTravel f).seq = s.seq := rfl
@[simp] theorem State.onTravel_travel (s : State) (f : Travel → Travel) : (s.onTravel f).travel = f s.travel := rfl
@[simp] theorem State.onTravel_power (s : State) (f : Travel → Travel) : (s.onTravel f).power = s.power := rfl
@[simp] theorem State.onTravel_quench (s : State) (f : Travel → Travel) : (s.onTravel f).quench = s.quench := rfl
@[simp] theorem State.onTravel_meas (s : State) (f : Travel → Travel) : (s.onTravel f).meas = s.meas := rfl
@[simp] theorem State.onTravel_trip (s : State) (f : Travel → Travel) : (s.onTravel f).trip = s.trip := rfl
@[simp] theorem State.onTravel_zones (s : State) (f : Travel → Travel) : (s.onTravel f).zones = s.zones := rfl
@[simp] theorem State.onTravel_store (s : State) (f : Travel → Travel) : (s.onTravel f).store = s.store := rfl
@[simp] theorem State.onTravel_link (s : State) (f : Travel → Travel) : (s.onTravel f).link = s.link := rfl
@[simp] theorem State.onTravel_inputs (s : State) (f : Travel → Travel) : (s.onTravel f).inputs = s.inputs := rfl
@[simp] theorem State.onTravel_pending (s : State) (f : Travel → Travel) : (s.onTravel f).pending = s.pending := rfl

/-! ### onPower -/

@[simp] theorem State.onPower_cfg (s : State) (f : Power → Power) : (s.onPower f).cfg = s.cfg := rfl
@[simp] theorem State.onPower_seq (s : State) (f : Power → Power) : (s.onPower f).seq = s.seq := rfl
@[simp] theorem State.onPower_travel (s : State) (f : Power → Power) : (s.onPower f).travel = s.travel := rfl
@[simp] theorem State.onPower_power (s : State) (f : Power → Power) : (s.onPower f).power = f s.power := rfl
@[simp] theorem State.onPower_quench (s : State) (f : Power → Power) : (s.onPower f).quench = s.quench := rfl
@[simp] theorem State.onPower_meas (s : State) (f : Power → Power) : (s.onPower f).meas = s.meas := rfl
@[simp] theorem State.onPower_trip (s : State) (f : Power → Power) : (s.onPower f).trip = s.trip := rfl
@[simp] theorem State.onPower_zones (s : State) (f : Power → Power) : (s.onPower f).zones = s.zones := rfl
@[simp] theorem State.onPower_store (s : State) (f : Power → Power) : (s.onPower f).store = s.store := rfl
@[simp] theorem State.onPower_link (s : State) (f : Power → Power) : (s.onPower f).link = s.link := rfl
@[simp] theorem State.onPower_inputs (s : State) (f : Power → Power) : (s.onPower f).inputs = s.inputs := rfl
@[simp] theorem State.onPower_pending (s : State) (f : Power → Power) : (s.onPower f).pending = s.pending := rfl

/-! ### onQuench -/

@[simp] theorem State.onQuench_cfg (s : State) (f : Quench → Quench) : (s.onQuench f).cfg = s.cfg := rfl
@[simp] theorem State.onQuench_seq (s : State) (f : Quench → Quench) : (s.onQuench f).seq = s.seq := rfl
@[simp] theorem State.onQuench_travel (s : State) (f : Quench → Quench) : (s.onQuench f).travel = s.travel := rfl
@[simp] theorem State.onQuench_power (s : State) (f : Quench → Quench) : (s.onQuench f).power = s.power := rfl
@[simp] theorem State.onQuench_quench (s : State) (f : Quench → Quench) : (s.onQuench f).quench = f s.quench := rfl
@[simp] theorem State.onQuench_meas (s : State) (f : Quench → Quench) : (s.onQuench f).meas = s.meas := rfl
@[simp] theorem State.onQuench_trip (s : State) (f : Quench → Quench) : (s.onQuench f).trip = s.trip := rfl
@[simp] theorem State.onQuench_zones (s : State) (f : Quench → Quench) : (s.onQuench f).zones = s.zones := rfl
@[simp] theorem State.onQuench_store (s : State) (f : Quench → Quench) : (s.onQuench f).store = s.store := rfl
@[simp] theorem State.onQuench_link (s : State) (f : Quench → Quench) : (s.onQuench f).link = s.link := rfl
@[simp] theorem State.onQuench_inputs (s : State) (f : Quench → Quench) : (s.onQuench f).inputs = s.inputs := rfl
@[simp] theorem State.onQuench_pending (s : State) (f : Quench → Quench) : (s.onQuench f).pending = s.pending := rfl

/-! ### onMeas -/

@[simp] theorem State.onMeas_cfg (s : State) (f : Meas → Meas) : (s.onMeas f).cfg = s.cfg := rfl
@[simp] theorem State.onMeas_seq (s : State) (f : Meas → Meas) : (s.onMeas f).seq = s.seq := rfl
@[simp] theorem State.onMeas_travel (s : State) (f : Meas → Meas) : (s.onMeas f).travel = s.travel := rfl
@[simp] theorem State.onMeas_power (s : State) (f : Meas → Meas) : (s.onMeas f).power = s.power := rfl
@[simp] theorem State.onMeas_quench (s : State) (f : Meas → Meas) : (s.onMeas f).quench = s.quench := rfl
@[simp] theorem State.onMeas_meas (s : State) (f : Meas → Meas) : (s.onMeas f).meas = f s.meas := rfl
@[simp] theorem State.onMeas_trip (s : State) (f : Meas → Meas) : (s.onMeas f).trip = s.trip := rfl
@[simp] theorem State.onMeas_zones (s : State) (f : Meas → Meas) : (s.onMeas f).zones = s.zones := rfl
@[simp] theorem State.onMeas_store (s : State) (f : Meas → Meas) : (s.onMeas f).store = s.store := rfl
@[simp] theorem State.onMeas_link (s : State) (f : Meas → Meas) : (s.onMeas f).link = s.link := rfl
@[simp] theorem State.onMeas_inputs (s : State) (f : Meas → Meas) : (s.onMeas f).inputs = s.inputs := rfl
@[simp] theorem State.onMeas_pending (s : State) (f : Meas → Meas) : (s.onMeas f).pending = s.pending := rfl

/-! ### onTrip -/

@[simp] theorem State.onTrip_cfg (s : State) (f : TripUnit → TripUnit) : (s.onTrip f).cfg = s.cfg := rfl
@[simp] theorem State.onTrip_seq (s : State) (f : TripUnit → TripUnit) : (s.onTrip f).seq = s.seq := rfl
@[simp] theorem State.onTrip_travel (s : State) (f : TripUnit → TripUnit) : (s.onTrip f).travel = s.travel := rfl
@[simp] theorem State.onTrip_power (s : State) (f : TripUnit → TripUnit) : (s.onTrip f).power = s.power := rfl
@[simp] theorem State.onTrip_quench (s : State) (f : TripUnit → TripUnit) : (s.onTrip f).quench = s.quench := rfl
@[simp] theorem State.onTrip_meas (s : State) (f : TripUnit → TripUnit) : (s.onTrip f).meas = s.meas := rfl
@[simp] theorem State.onTrip_trip (s : State) (f : TripUnit → TripUnit) : (s.onTrip f).trip = f s.trip := rfl
@[simp] theorem State.onTrip_zones (s : State) (f : TripUnit → TripUnit) : (s.onTrip f).zones = s.zones := rfl
@[simp] theorem State.onTrip_store (s : State) (f : TripUnit → TripUnit) : (s.onTrip f).store = s.store := rfl
@[simp] theorem State.onTrip_link (s : State) (f : TripUnit → TripUnit) : (s.onTrip f).link = s.link := rfl
@[simp] theorem State.onTrip_inputs (s : State) (f : TripUnit → TripUnit) : (s.onTrip f).inputs = s.inputs := rfl
@[simp] theorem State.onTrip_pending (s : State) (f : TripUnit → TripUnit) : (s.onTrip f).pending = s.pending := rfl

/-! ### onZones -/

@[simp] theorem State.onZones_cfg (s : State) (f : Zones → Zones) : (s.onZones f).cfg = s.cfg := rfl
@[simp] theorem State.onZones_seq (s : State) (f : Zones → Zones) : (s.onZones f).seq = s.seq := rfl
@[simp] theorem State.onZones_travel (s : State) (f : Zones → Zones) : (s.onZones f).travel = s.travel := rfl
@[simp] theorem State.onZones_power (s : State) (f : Zones → Zones) : (s.onZones f).power = s.power := rfl
@[simp] theorem State.onZones_quench (s : State) (f : Zones → Zones) : (s.onZones f).quench = s.quench := rfl
@[simp] theorem State.onZones_meas (s : State) (f : Zones → Zones) : (s.onZones f).meas = s.meas := rfl
@[simp] theorem State.onZones_trip (s : State) (f : Zones → Zones) : (s.onZones f).trip = s.trip := rfl
@[simp] theorem State.onZones_zones (s : State) (f : Zones → Zones) : (s.onZones f).zones = f s.zones := rfl
@[simp] theorem State.onZones_store (s : State) (f : Zones → Zones) : (s.onZones f).store = s.store := rfl
@[simp] theorem State.onZones_link (s : State) (f : Zones → Zones) : (s.onZones f).link = s.link := rfl
@[simp] theorem State.onZones_inputs (s : State) (f : Zones → Zones) : (s.onZones f).inputs = s.inputs := rfl
@[simp] theorem State.onZones_pending (s : State) (f : Zones → Zones) : (s.onZones f).pending = s.pending := rfl

/-! ### onStore -/

@[simp] theorem State.onStore_cfg (s : State) (f : Store → Store) : (s.onStore f).cfg = s.cfg := rfl
@[simp] theorem State.onStore_seq (s : State) (f : Store → Store) : (s.onStore f).seq = s.seq := rfl
@[simp] theorem State.onStore_travel (s : State) (f : Store → Store) : (s.onStore f).travel = s.travel := rfl
@[simp] theorem State.onStore_power (s : State) (f : Store → Store) : (s.onStore f).power = s.power := rfl
@[simp] theorem State.onStore_quench (s : State) (f : Store → Store) : (s.onStore f).quench = s.quench := rfl
@[simp] theorem State.onStore_meas (s : State) (f : Store → Store) : (s.onStore f).meas = s.meas := rfl
@[simp] theorem State.onStore_trip (s : State) (f : Store → Store) : (s.onStore f).trip = s.trip := rfl
@[simp] theorem State.onStore_zones (s : State) (f : Store → Store) : (s.onStore f).zones = s.zones := rfl
@[simp] theorem State.onStore_store (s : State) (f : Store → Store) : (s.onStore f).store = f s.store := rfl
@[simp] theorem State.onStore_link (s : State) (f : Store → Store) : (s.onStore f).link = s.link := rfl
@[simp] theorem State.onStore_inputs (s : State) (f : Store → Store) : (s.onStore f).inputs = s.inputs := rfl
@[simp] theorem State.onStore_pending (s : State) (f : Store → Store) : (s.onStore f).pending = s.pending := rfl

/-! ### onLink -/

@[simp] theorem State.onLink_cfg (s : State) (f : Link → Link) : (s.onLink f).cfg = s.cfg := rfl
@[simp] theorem State.onLink_seq (s : State) (f : Link → Link) : (s.onLink f).seq = s.seq := rfl
@[simp] theorem State.onLink_travel (s : State) (f : Link → Link) : (s.onLink f).travel = s.travel := rfl
@[simp] theorem State.onLink_power (s : State) (f : Link → Link) : (s.onLink f).power = s.power := rfl
@[simp] theorem State.onLink_quench (s : State) (f : Link → Link) : (s.onLink f).quench = s.quench := rfl
@[simp] theorem State.onLink_meas (s : State) (f : Link → Link) : (s.onLink f).meas = s.meas := rfl
@[simp] theorem State.onLink_trip (s : State) (f : Link → Link) : (s.onLink f).trip = s.trip := rfl
@[simp] theorem State.onLink_zones (s : State) (f : Link → Link) : (s.onLink f).zones = s.zones := rfl
@[simp] theorem State.onLink_store (s : State) (f : Link → Link) : (s.onLink f).store = s.store := rfl
@[simp] theorem State.onLink_link (s : State) (f : Link → Link) : (s.onLink f).link = f s.link := rfl
@[simp] theorem State.onLink_inputs (s : State) (f : Link → Link) : (s.onLink f).inputs = s.inputs := rfl
@[simp] theorem State.onLink_pending (s : State) (f : Link → Link) : (s.onLink f).pending = s.pending := rfl

/-! ### onInputs -/

@[simp] theorem State.onInputs_cfg (s : State) (f : Inputs → Inputs) : (s.onInputs f).cfg = s.cfg := rfl
@[simp] theorem State.onInputs_seq (s : State) (f : Inputs → Inputs) : (s.onInputs f).seq = s.seq := rfl
@[simp] theorem State.onInputs_travel (s : State) (f : Inputs → Inputs) : (s.onInputs f).travel = s.travel := rfl
@[simp] theorem State.onInputs_power (s : State) (f : Inputs → Inputs) : (s.onInputs f).power = s.power := rfl
@[simp] theorem State.onInputs_quench (s : State) (f : Inputs → Inputs) : (s.onInputs f).quench = s.quench := rfl
@[simp] theorem State.onInputs_meas (s : State) (f : Inputs → Inputs) : (s.onInputs f).meas = s.meas := rfl
@[simp] theorem State.onInputs_trip (s : State) (f : Inputs → Inputs) : (s.onInputs f).trip = s.trip := rfl
@[simp] theorem State.onInputs_zones (s : State) (f : Inputs → Inputs) : (s.onInputs f).zones = s.zones := rfl
@[simp] theorem State.onInputs_store (s : State) (f : Inputs → Inputs) : (s.onInputs f).store = s.store := rfl
@[simp] theorem State.onInputs_link (s : State) (f : Inputs → Inputs) : (s.onInputs f).link = s.link := rfl
@[simp] theorem State.onInputs_inputs (s : State) (f : Inputs → Inputs) : (s.onInputs f).inputs = f s.inputs := rfl
@[simp] theorem State.onInputs_pending (s : State) (f : Inputs → Inputs) : (s.onInputs f).pending = s.pending := rfl

/-! ### onCfg -/

@[simp] theorem State.onCfg_cfg (s : State) (f : ConfigGroups → ConfigGroups) : (s.onCfg f).cfg = f s.cfg := rfl
@[simp] theorem State.onCfg_seq (s : State) (f : ConfigGroups → ConfigGroups) : (s.onCfg f).seq = s.seq := rfl
@[simp] theorem State.onCfg_travel (s : State) (f : ConfigGroups → ConfigGroups) : (s.onCfg f).travel = s.travel := rfl
@[simp] theorem State.onCfg_power (s : State) (f : ConfigGroups → ConfigGroups) : (s.onCfg f).power = s.power := rfl
@[simp] theorem State.onCfg_quench (s : State) (f : ConfigGroups → ConfigGroups) : (s.onCfg f).quench = s.quench := rfl
@[simp] theorem State.onCfg_meas (s : State) (f : ConfigGroups → ConfigGroups) : (s.onCfg f).meas = s.meas := rfl
@[simp] theorem State.onCfg_trip (s : State) (f : ConfigGroups → ConfigGroups) : (s.onCfg f).trip = s.trip := rfl
@[simp] theorem State.onCfg_zones (s : State) (f : ConfigGroups → ConfigGroups) : (s.onCfg f).zones = s.zones := rfl
@[simp] theorem State.onCfg_store (s : State) (f : ConfigGroups → ConfigGroups) : (s.onCfg f).store = s.store := rfl
@[simp] theorem State.onCfg_link (s : State) (f : ConfigGroups → ConfigGroups) : (s.onCfg f).link = s.link := rfl
@[simp] theorem State.onCfg_inputs (s : State) (f : ConfigGroups → ConfigGroups) : (s.onCfg f).inputs = s.inputs := rfl
@[simp] theorem State.onCfg_pending (s : State) (f : ConfigGroups → ConfigGroups) : (s.onCfg f).pending = s.pending := rfl

/-! ### Notices, state changes, replies, spindle -/

@[simp] theorem State.notify_cfg (s : State) (n : Notice) : (s.notify n).cfg = s.cfg := rfl
@[simp] theorem State.notify_seq (s : State) (n : Notice) : (s.notify n).seq = s.seq := rfl
@[simp] theorem State.notify_travel (s : State) (n : Notice) : (s.notify n).travel = s.travel := rfl
@[simp] theorem State.notify_power (s : State) (n : Notice) : (s.notify n).power = s.power := rfl
@[simp] theorem State.notify_quench (s : State) (n : Notice) : (s.notify n).quench = s.quench := rfl
@[simp] theorem State.notify_meas (s : State) (n : Notice) : (s.notify n).meas = s.meas := rfl
@[simp] theorem State.notify_trip (s : State) (n : Notice) : (s.notify n).trip = s.trip := rfl
@[simp] theorem State.notify_zones (s : State) (n : Notice) : (s.notify n).zones = s.zones := rfl
@[simp] theorem State.notify_store (s : State) (n : Notice) : (s.notify n).store = s.store := rfl
@[simp] theorem State.notify_link (s : State) (n : Notice) : (s.notify n).link = s.link.placeNotice n := rfl
@[simp] theorem State.notify_inputs (s : State) (n : Notice) : (s.notify n).inputs = s.inputs := rfl
@[simp] theorem State.notify_pending (s : State) (n : Notice) : (s.notify n).pending = s.pending := rfl

@[simp] theorem State.enter_cfg (s : State) (st : SeqState) (c : Cause) :
    (s.enter st c).cfg = s.cfg := rfl
@[simp] theorem State.enter_seq (s : State) (st : SeqState) (c : Cause) :
    (s.enter st c).seq = { s.seq with state := st } := rfl
@[simp] theorem State.enter_travel (s : State) (st : SeqState) (c : Cause) :
    (s.enter st c).travel = s.travel := rfl
@[simp] theorem State.enter_power (s : State) (st : SeqState) (c : Cause) :
    (s.enter st c).power = s.power := rfl
@[simp] theorem State.enter_quench (s : State) (st : SeqState) (c : Cause) :
    (s.enter st c).quench = s.quench := rfl
@[simp] theorem State.enter_meas (s : State) (st : SeqState) (c : Cause) :
    (s.enter st c).meas = s.meas := rfl
@[simp] theorem State.enter_trip (s : State) (st : SeqState) (c : Cause) :
    (s.enter st c).trip = s.trip := rfl
@[simp] theorem State.enter_zones (s : State) (st : SeqState) (c : Cause) :
    (s.enter st c).zones = s.zones := rfl
@[simp] theorem State.enter_store (s : State) (st : SeqState) (c : Cause) :
    (s.enter st c).store = s.store := rfl
@[simp] theorem State.enter_link (s : State) (st : SeqState) (c : Cause) :
    (s.enter st c).link = s.link.placeNotice (.state st c none) := rfl
@[simp] theorem State.enter_inputs (s : State) (st : SeqState) (c : Cause) :
    (s.enter st c).inputs = s.inputs := rfl
@[simp] theorem State.enter_pending (s : State) (st : SeqState) (c : Cause) :
    (s.enter st c).pending = s.pending := rfl

@[simp] theorem State.answer_cfg (s : State) (k tag : Byte) (a : Answer) :
    (s.answer k tag a).cfg = s.cfg := rfl
@[simp] theorem State.answer_seq (s : State) (k tag : Byte) (a : Answer) :
    (s.answer k tag a).seq = s.seq := rfl
@[simp] theorem State.answer_travel (s : State) (k tag : Byte) (a : Answer) :
    (s.answer k tag a).travel = s.travel := rfl
@[simp] theorem State.answer_power (s : State) (k tag : Byte) (a : Answer) :
    (s.answer k tag a).power = s.power := rfl
@[simp] theorem State.answer_quench (s : State) (k tag : Byte) (a : Answer) :
    (s.answer k tag a).quench = s.quench := rfl
@[simp] theorem State.answer_meas (s : State) (k tag : Byte) (a : Answer) :
    (s.answer k tag a).meas = s.meas := rfl
@[simp] theorem State.answer_trip (s : State) (k tag : Byte) (a : Answer) :
    (s.answer k tag a).trip = s.trip := rfl
@[simp] theorem State.answer_zones (s : State) (k tag : Byte) (a : Answer) :
    (s.answer k tag a).zones = s.zones := rfl
@[simp] theorem State.answer_store (s : State) (k tag : Byte) (a : Answer) :
    (s.answer k tag a).store = s.store := rfl
@[simp] theorem State.answer_link (s : State) (k tag : Byte) (a : Answer) :
    (s.answer k tag a).link = s.link.placeReply ⟨replyKind k, tag, a.1, a.2⟩ := rfl
@[simp] theorem State.answer_inputs (s : State) (k tag : Byte) (a : Answer) :
    (s.answer k tag a).inputs = s.inputs := rfl
@[simp] theorem State.answer_pending (s : State) (k tag : Byte) (a : Answer) :
    (s.answer k tag a).pending = s.pending := rfl

@[simp] theorem State.setSpindle_cfg (s : State) (r : Nat) : (s.setSpindle r).cfg = s.cfg := rfl
@[simp] theorem State.setSpindle_seq (s : State) (r : Nat) : (s.setSpindle r).seq = s.seq := rfl
@[simp] theorem State.setSpindle_travel (s : State) (r : Nat) : (s.setSpindle r).travel = s.travel.setSpindle r := rfl
@[simp] theorem State.setSpindle_power (s : State) (r : Nat) : (s.setSpindle r).power = s.power := rfl
@[simp] theorem State.setSpindle_quench (s : State) (r : Nat) : (s.setSpindle r).quench = s.quench := rfl
@[simp] theorem State.setSpindle_meas (s : State) (r : Nat) : (s.setSpindle r).meas = s.meas := rfl
@[simp] theorem State.setSpindle_trip (s : State) (r : Nat) : (s.setSpindle r).trip = s.trip := rfl
@[simp] theorem State.setSpindle_zones (s : State) (r : Nat) : (s.setSpindle r).zones = s.zones := rfl
@[simp] theorem State.setSpindle_store (s : State) (r : Nat) : (s.setSpindle r).store = s.store := rfl
@[simp] theorem State.setSpindle_link (s : State) (r : Nat) : (s.setSpindle r).link = s.link := rfl
@[simp] theorem State.setSpindle_inputs (s : State) (r : Nat) : (s.setSpindle r).inputs = s.inputs := rfl
@[simp] theorem State.setSpindle_pending (s : State) (r : Nat) : (s.setSpindle r).pending = s.pending := rfl

end Sys2Proof.Machine
end

