-- ==== Sys2Proof/Laws/Blocks.lean ====
section
/-! SUPPORT. What each shared operation of the Trip Unit and of the scan's ends does to each block, said once, as simp lemmas: proofs
cite these and do not unfold the operations. -/

namespace Sys2Proof.Machine

/-! ### Pieces of State operations -/

@[simp] theorem State.zeroOrder_cfg (s : State) : (s.zeroOrder).cfg = s.cfg := rfl
@[simp] theorem State.zeroOrder_seq (s : State) : (s.zeroOrder).seq = s.seq := rfl
@[simp] theorem State.zeroOrder_travel (s : State) : (s.zeroOrder).travel = s.travel := rfl
@[simp] theorem State.zeroOrder_power (s : State) : (s.zeroOrder).power = s.power.zero.enableOff := rfl
@[simp] theorem State.zeroOrder_quench (s : State) : (s.zeroOrder).quench = s.quench := rfl
@[simp] theorem State.zeroOrder_meas (s : State) : (s.zeroOrder).meas = s.meas := rfl
@[simp] theorem State.zeroOrder_trip (s : State) : (s.zeroOrder).trip = s.trip := rfl
@[simp] theorem State.zeroOrder_zones (s : State) : (s.zeroOrder).zones = s.zones := rfl
@[simp] theorem State.zeroOrder_store (s : State) : (s.zeroOrder).store = s.store := rfl
@[simp] theorem State.zeroOrder_link (s : State) : (s.zeroOrder).link = s.link := rfl
@[simp] theorem State.zeroOrder_inputs (s : State) : (s.zeroOrder).inputs = s.inputs := rfl
@[simp] theorem State.zeroOrder_pending (s : State) : (s.zeroOrder).pending = s.pending := rfl

@[simp] theorem State.scanOver_cfg (s : State) : (s.scanOver).cfg = s.cfg := rfl
@[simp] theorem State.scanOver_seq (s : State) :
    (s.scanOver).seq = { s.seq with passDir := none, scanClock := none, segClosed := false } := rfl
@[simp] theorem State.scanOver_travel (s : State) : (s.scanOver).travel = s.travel := rfl
@[simp] theorem State.scanOver_power (s : State) : (s.scanOver).power = s.power := rfl
@[simp] theorem State.scanOver_quench (s : State) : (s.scanOver).quench = s.quench := rfl
@[simp] theorem State.scanOver_meas (s : State) : (s.scanOver).meas = s.meas := rfl
@[simp] theorem State.scanOver_trip (s : State) : (s.scanOver).trip = s.trip := rfl
@[simp] theorem State.scanOver_zones (s : State) : (s.scanOver).zones = s.zones := rfl
@[simp] theorem State.scanOver_store (s : State) : (s.scanOver).store = { s.store with inUse := none } := rfl
@[simp] theorem State.scanOver_link (s : State) : (s.scanOver).link = s.link := rfl
@[simp] theorem State.scanOver_inputs (s : State) : (s.scanOver).inputs = s.inputs := rfl
@[simp] theorem State.scanOver_pending (s : State) : (s.scanOver).pending = s.pending := rfl

@[simp] theorem State.closeRecord_cfg (s : State) (c : EndCause) (t : Option TripRecord) :
    (s.closeRecord c t).cfg = s.cfg := by
  unfold State.closeRecord; split <;> rfl
@[simp] theorem State.closeRecord_seq (s : State) (c : EndCause) (t : Option TripRecord) :
    (s.closeRecord c t).seq = s.seq := by
  unfold State.closeRecord; split <;> rfl
@[simp] theorem State.closeRecord_travel (s : State) (c : EndCause) (t : Option TripRecord) :
    (s.closeRecord c t).travel = s.travel := by
  unfold State.closeRecord; split <;> rfl
@[simp] theorem State.closeRecord_power (s : State) (c : EndCause) (t : Option TripRecord) :
    (s.closeRecord c t).power = s.power := by
  unfold State.closeRecord; split <;> rfl
@[simp] theorem State.closeRecord_quench (s : State) (c : EndCause) (t : Option TripRecord) :
    (s.closeRecord c t).quench = s.quench := by
  unfold State.closeRecord; split <;> rfl
@[simp] theorem State.closeRecord_meas (s : State) (c : EndCause) (t : Option TripRecord) :
    (s.closeRecord c t).meas = s.meas := by
  unfold State.closeRecord; split <;> rfl
@[simp] theorem State.closeRecord_trip (s : State) (c : EndCause) (t : Option TripRecord) :
    (s.closeRecord c t).trip = s.trip := by
  unfold State.closeRecord; split <;> rfl
@[simp] theorem State.closeRecord_zones (s : State) (c : EndCause) (t : Option TripRecord) :
    (s.closeRecord c t).zones = s.zones.close c (s.seq.scanClock.getD 0) t := by
  unfold State.closeRecord Zones.close; split <;> simp [*]
@[simp] theorem State.closeRecord_store (s : State) (c : EndCause) (t : Option TripRecord) :
    (s.closeRecord c t).store = s.store := by
  unfold State.closeRecord; split <;> rfl
@[simp] theorem State.closeRecord_inputs (s : State) (c : EndCause) (t : Option TripRecord) :
    (s.closeRecord c t).inputs = s.inputs := by
  unfold State.closeRecord; split <;> rfl
@[simp] theorem State.closeRecord_pending (s : State) (c : EndCause) (t : Option TripRecord) :
    (s.closeRecord c t).pending = s.pending := by
  unfold State.closeRecord; split <;> rfl

theorem State.closeRecord_link_some (s : State) (c : EndCause) (t : Option TripRecord) (r : OpenRecord)
    (h : s.zones.openRec = some r) :
    (s.closeRecord c t).link = s.link.placeNotice (.record r.number) := by
  unfold State.closeRecord; rw [h]; rfl

theorem State.closeRecord_link_none (s : State) (c : EndCause) (t : Option TripRecord)
    (h : s.zones.openRec = none) : (s.closeRecord c t).link = s.link := by
  unfold State.closeRecord; rw [h]

@[simp] theorem State.flush_cfg (s : State) :
    (s.flush).cfg = s.cfg := by
  unfold State.flush; dsimp only; repeat' split
  all_goals rfl
@[simp] theorem State.flush_seq (s : State) :
    (s.flush).seq = { s.seq with
        queue := [], next := none, active := none, turnPhase := .none, source := .none,
        flow := .flowing, loader := none, stepTimer := none, prestartTimer := none } := by
  unfold State.flush; dsimp only; repeat' split
  all_goals rfl
@[simp] theorem State.flush_travel (s : State) :
    (s.flush).travel = s.travel := by
  unfold State.flush; dsimp only; repeat' split
  all_goals rfl
@[simp] theorem State.flush_power (s : State) :
    (s.flush).power = s.power := by
  unfold State.flush; dsimp only; repeat' split
  all_goals rfl
@[simp] theorem State.flush_meas (s : State) :
    (s.flush).meas = s.meas := by
  unfold State.flush; dsimp only; repeat' split
  all_goals rfl
@[simp] theorem State.flush_trip (s : State) :
    (s.flush).trip = s.trip := by
  unfold State.flush; dsimp only; repeat' split
  all_goals rfl
@[simp] theorem State.flush_zones (s : State) :
    (s.flush).zones = s.zones.onOpen OpenRecord.noZone := by
  unfold State.flush; dsimp only; repeat' split
  all_goals rfl
@[simp] theorem State.flush_store (s : State) :
    (s.flush).store = s.store := by
  unfold State.flush; dsimp only; repeat' split
  all_goals rfl
@[simp] theorem State.flush_link (s : State) :
    (s.flush).link = s.link := by
  unfold State.flush; dsimp only; repeat' split
  all_goals rfl
@[simp] theorem State.flush_inputs (s : State) :
    (s.flush).inputs = s.inputs := by
  unfold State.flush; dsimp only; repeat' split
  all_goals rfl
@[simp] theorem State.flush_pending (s : State) :
    (s.flush).pending = s.pending := by
  unfold State.flush; dsimp only; repeat' split
  all_goals rfl

theorem State.flush_quench (s : State) :
    s.flush.quench = s.quench ∨ s.flush.quench = s.quench.sprayClose := by
  unfold State.flush; dsimp only
  repeat' split
  all_goals first | exact .inl rfl | exact .inr rfl

@[simp] theorem State.discard_cfg (s : State) (h : Bool) : (s.discard h).cfg = s.cfg := rfl
@[simp] theorem State.discard_seq (s : State) (h : Bool) : (s.discard h).seq = s.seq := rfl
@[simp] theorem State.discard_travel (s : State) (h : Bool) : (s.discard h).travel = s.travel := rfl
@[simp] theorem State.discard_power (s : State) (h : Bool) : (s.discard h).power = s.power := rfl
@[simp] theorem State.discard_quench (s : State) (h : Bool) : (s.discard h).quench = s.quench.discard h := rfl
@[simp] theorem State.discard_meas (s : State) (h : Bool) : (s.discard h).meas = s.meas := rfl
@[simp] theorem State.discard_trip (s : State) (h : Bool) : (s.discard h).trip = s.trip := rfl
@[simp] theorem State.discard_zones (s : State) (h : Bool) : (s.discard h).zones = s.zones := rfl
@[simp] theorem State.discard_store (s : State) (h : Bool) : (s.discard h).store = s.store := rfl
@[simp] theorem State.discard_link (s : State) (h : Bool) : (s.discard h).link = s.link := rfl
@[simp] theorem State.discard_inputs (s : State) (h : Bool) : (s.discard h).inputs = s.inputs := rfl
@[simp] theorem State.discard_pending (s : State) (h : Bool) : (s.discard h).pending = s.pending := rfl

@[simp] theorem State.flood_cfg (s : State) : (s.flood).cfg = s.cfg := rfl
@[simp] theorem State.flood_seq (s : State) : (s.flood).seq = s.seq := rfl
@[simp] theorem State.flood_travel (s : State) : (s.flood).travel = s.travel := rfl
@[simp] theorem State.flood_power (s : State) : (s.flood).power = s.power := rfl
@[simp] theorem State.flood_quench (s : State) : (s.flood).quench = s.quench.floodOrder s.cfg.quench := rfl
@[simp] theorem State.flood_meas (s : State) : (s.flood).meas = s.meas := rfl
@[simp] theorem State.flood_trip (s : State) : (s.flood).trip = s.trip := rfl
@[simp] theorem State.flood_zones (s : State) : (s.flood).zones = s.zones := rfl
@[simp] theorem State.flood_store (s : State) : (s.flood).store = s.store := rfl
@[simp] theorem State.flood_link (s : State) : (s.flood).link = s.link := rfl
@[simp] theorem State.flood_inputs (s : State) : (s.flood).inputs = s.inputs := rfl
@[simp] theorem State.flood_pending (s : State) : (s.flood).pending = s.pending := rfl

@[simp] theorem State.haltOrders_cfg (s : State) : (s.haltOrders).cfg = s.cfg := rfl
@[simp] theorem State.haltOrders_seq (s : State) : (s.haltOrders).seq = s.seq := rfl
@[simp] theorem State.haltOrders_travel (s : State) :
    (s.haltOrders).travel = s.travel.orderDisabled.setSpindle 0 := rfl
@[simp] theorem State.haltOrders_power (s : State) : (s.haltOrders).power = s.power := rfl
@[simp] theorem State.haltOrders_quench (s : State) :
    (s.haltOrders).quench = (s.quench.discard true).pumpOff := rfl
@[simp] theorem State.haltOrders_meas (s : State) : (s.haltOrders).meas = s.meas := rfl
@[simp] theorem State.haltOrders_trip (s : State) : (s.haltOrders).trip = s.trip := rfl
@[simp] theorem State.haltOrders_zones (s : State) : (s.haltOrders).zones = s.zones := rfl
@[simp] theorem State.haltOrders_store (s : State) : (s.haltOrders).store = s.store := rfl
@[simp] theorem State.haltOrders_link (s : State) : (s.haltOrders).link = s.link := rfl
@[simp] theorem State.haltOrders_inputs (s : State) : (s.haltOrders).inputs = s.inputs := rfl
@[simp] theorem State.haltOrders_pending (s : State) : (s.haltOrders).pending = s.pending := rfl

@[simp] theorem State.respond_cfg (s : State) (r : Response) : (s.respond r).cfg = s.cfg := rfl
@[simp] theorem State.respond_seq (s : State) (r : Response) : (s.respond r).seq = s.seq := rfl
@[simp] theorem State.respond_travel (s : State) (r : Response) : (s.respond r).travel = s.travel := rfl
@[simp] theorem State.respond_power (s : State) (r : Response) : (s.respond r).power = s.power := rfl
@[simp] theorem State.respond_quench (s : State) (r : Response) : (s.respond r).quench = s.quench := rfl
@[simp] theorem State.respond_meas (s : State) (r : Response) : (s.respond r).meas = s.meas := rfl
@[simp] theorem State.respond_trip (s : State) (r : Response) :
    (s.respond r).trip = { s.trip with
        response := some r, responseDone := false, trailsSeen := false, stoppedSeen := false,
        floodSeen := false } := rfl
@[simp] theorem State.respond_zones (s : State) (r : Response) : (s.respond r).zones = s.zones := rfl
@[simp] theorem State.respond_store (s : State) (r : Response) : (s.respond r).store = s.store := rfl
@[simp] theorem State.respond_link (s : State) (r : Response) : (s.respond r).link = s.link := rfl
@[simp] theorem State.respond_inputs (s : State) (r : Response) : (s.respond r).inputs = s.inputs := rfl
@[simp] theorem State.respond_pending (s : State) (r : Response) : (s.respond r).pending = s.pending := rfl

@[simp] theorem State.stopCarriage_cfg (s : State) : (s.stopCarriage).cfg = s.cfg := rfl
@[simp] theorem State.stopCarriage_seq (s : State) : (s.stopCarriage).seq = s.seq := rfl
@[simp] theorem State.stopCarriage_travel (s : State) :
    (s.stopCarriage).travel = s.travel.orderStopping := rfl
@[simp] theorem State.stopCarriage_power (s : State) : (s.stopCarriage).power = s.power := rfl
@[simp] theorem State.stopCarriage_quench (s : State) : (s.stopCarriage).quench = s.quench := rfl
@[simp] theorem State.stopCarriage_meas (s : State) : (s.stopCarriage).meas = s.meas := rfl
@[simp] theorem State.stopCarriage_trip (s : State) :
    (s.stopCarriage).trip = { s.trip with stoppedSeen := s.travel.stopped } := rfl
@[simp] theorem State.stopCarriage_zones (s : State) : (s.stopCarriage).zones = s.zones := rfl
@[simp] theorem State.stopCarriage_store (s : State) : (s.stopCarriage).store = s.store := rfl
@[simp] theorem State.stopCarriage_link (s : State) : (s.stopCarriage).link = s.link := rfl
@[simp] theorem State.stopCarriage_inputs (s : State) : (s.stopCarriage).inputs = s.inputs := rfl
@[simp] theorem State.stopCarriage_pending (s : State) : (s.stopCarriage).pending = s.pending := rfl

@[simp] theorem State.enterTripped_cfg (s : State) :
    (s.enterTripped).cfg = s.cfg := by
  unfold State.enterTripped; dsimp only; split <;> simp_all
@[simp] theorem State.enterTripped_seq (s : State) :
    (s.enterTripped).seq =
      { s.seq with state := .tripped, passDir := none, scanClock := none, segClosed := false } := by
  unfold State.enterTripped; dsimp only; split <;> simp_all
@[simp] theorem State.enterTripped_travel (s : State) :
    (s.enterTripped).travel = s.travel.setSpindle 0 := by
  unfold State.enterTripped; dsimp only; split <;> simp_all
@[simp] theorem State.enterTripped_power (s : State) :
    (s.enterTripped).power = s.power := by
  unfold State.enterTripped; dsimp only; split <;> simp_all
@[simp] theorem State.enterTripped_quench (s : State) :
    (s.enterTripped).quench = if s.quench.pump then s.quench.idleStart s.cfg.quench else s.quench := by
  unfold State.enterTripped; dsimp only; split <;> simp_all
@[simp] theorem State.enterTripped_meas (s : State) :
    (s.enterTripped).meas = s.meas := by
  unfold State.enterTripped; dsimp only; split <;> simp_all
@[simp] theorem State.enterTripped_trip (s : State) :
    (s.enterTripped).trip = { s.trip with responseDone := true } := by
  unfold State.enterTripped; dsimp only; split <;> simp_all
@[simp] theorem State.enterTripped_zones (s : State) :
    (s.enterTripped).zones = s.zones.close .tripped (s.seq.scanClock.getD 0) s.trip.record := by
  unfold State.enterTripped; dsimp only; split <;> simp_all
@[simp] theorem State.enterTripped_store (s : State) :
    (s.enterTripped).store = { s.store with inUse := none } := by
  unfold State.enterTripped; dsimp only; split <;> simp_all
@[simp] theorem State.enterTripped_inputs (s : State) :
    (s.enterTripped).inputs = s.inputs := by
  unfold State.enterTripped; dsimp only; split <;> simp_all
@[simp] theorem State.enterTripped_pending (s : State) :
    (s.enterTripped).pending = s.pending := by
  unfold State.enterTripped; dsimp only; split <;> simp_all

@[simp] theorem State.exitPrestart_cfg (s : State) (c : EndCause) :
    (s.exitPrestart c).cfg = s.cfg := by
  unfold State.exitPrestart; simp
@[simp] theorem State.exitPrestart_seq (s : State) (c : EndCause) :
    (s.exitPrestart c).seq = { s.seq with
        state := .idle, turnPhase := .none, queue := [], next := none, active := none,
        source := .none, flow := .flowing, loader := none, stepTimer := none, prestartTimer := none,
        lastEnd := some c, passDir := none, scanClock := none, segClosed := false } := by
  unfold State.exitPrestart; simp
@[simp] theorem State.exitPrestart_travel (s : State) (c : EndCause) :
    (s.exitPrestart c).travel = s.travel.setSpindle 0 := by
  unfold State.exitPrestart; simp
@[simp] theorem State.exitPrestart_power (s : State) (c : EndCause) :
    (s.exitPrestart c).power = s.power.zero.enableOff := by
  unfold State.exitPrestart; simp
@[simp] theorem State.exitPrestart_meas (s : State) (c : EndCause) :
    (s.exitPrestart c).meas = s.meas := by
  unfold State.exitPrestart; simp
@[simp] theorem State.exitPrestart_trip (s : State) (c : EndCause) :
    (s.exitPrestart c).trip = s.trip := by
  unfold State.exitPrestart; simp
@[simp] theorem State.exitPrestart_zones (s : State) (c : EndCause) :
    (s.exitPrestart c).zones = (s.zones.onOpen OpenRecord.noZone).close c (s.seq.scanClock.getD 0) none := by
  unfold State.exitPrestart; simp
@[simp] theorem State.exitPrestart_store (s : State) (c : EndCause) :
    (s.exitPrestart c).store = { s.store with inUse := none } := by
  unfold State.exitPrestart; simp
@[simp] theorem State.exitPrestart_inputs (s : State) (c : EndCause) :
    (s.exitPrestart c).inputs = s.inputs := by
  unfold State.exitPrestart; simp
@[simp] theorem State.exitPrestart_pending (s : State) (c : EndCause) :
    (s.exitPrestart c).pending = s.pending := by
  unfold State.exitPrestart; simp

@[simp] theorem State.runoutComplete_cfg (s : State) :
    (s.runoutComplete).cfg = s.cfg := by
  unfold State.runoutComplete; simp
@[simp] theorem State.runoutComplete_seq (s : State) :
    (s.runoutComplete).seq =
      { s.seq with state := .idle, passDir := none, scanClock := none, segClosed := false } := by
  unfold State.runoutComplete; simp
@[simp] theorem State.runoutComplete_travel (s : State) :
    (s.runoutComplete).travel = s.travel := by
  unfold State.runoutComplete; simp
@[simp] theorem State.runoutComplete_power (s : State) :
    (s.runoutComplete).power = s.power := by
  unfold State.runoutComplete; simp
@[simp] theorem State.runoutComplete_quench (s : State) :
    (s.runoutComplete).quench = s.quench.idleStart s.cfg.quench := by
  unfold State.runoutComplete; simp
@[simp] theorem State.runoutComplete_meas (s : State) :
    (s.runoutComplete).meas = s.meas := by
  unfold State.runoutComplete; simp
@[simp] theorem State.runoutComplete_trip (s : State) :
    (s.runoutComplete).trip = s.trip := by
  unfold State.runoutComplete; simp
@[simp] theorem State.runoutComplete_zones (s : State) :
    (s.runoutComplete).zones =
      s.zones.close (s.seq.lastEnd.getD .complete) (s.seq.scanClock.getD 0) none := by
  unfold State.runoutComplete; simp
@[simp] theorem State.runoutComplete_store (s : State) :
    (s.runoutComplete).store = { s.store with inUse := none } := by
  unfold State.runoutComplete; simp
@[simp] theorem State.runoutComplete_inputs (s : State) :
    (s.runoutComplete).inputs = s.inputs := by
  unfold State.runoutComplete; simp
@[simp] theorem State.runoutComplete_pending (s : State) :
    (s.runoutComplete).pending = s.pending := by
  unfold State.runoutComplete; simp

@[simp] theorem State.sendMarks_cfg (s : State) (ms : List Nat) :
    (s.sendMarks ms).cfg = s.cfg := by
  unfold State.sendMarks
  induction ms generalizing s with
  | nil => rfl
  | cons m ms ih => rw [List.foldl_cons, ih]; rfl
@[simp] theorem State.sendMarks_seq (s : State) (ms : List Nat) :
    (s.sendMarks ms).seq = s.seq := by
  unfold State.sendMarks
  induction ms generalizing s with
  | nil => rfl
  | cons m ms ih => rw [List.foldl_cons, ih]; rfl
@[simp] theorem State.sendMarks_travel (s : State) (ms : List Nat) :
    (s.sendMarks ms).travel = s.travel := by
  unfold State.sendMarks
  induction ms generalizing s with
  | nil => rfl
  | cons m ms ih => rw [List.foldl_cons, ih]; rfl
@[simp] theorem State.sendMarks_power (s : State) (ms : List Nat) :
    (s.sendMarks ms).power = s.power := by
  unfold State.sendMarks
  induction ms generalizing s with
  | nil => rfl
  | cons m ms ih => rw [List.foldl_cons, ih]; rfl
@[simp] theorem State.sendMarks_quench (s : State) (ms : List Nat) :
    (s.sendMarks ms).quench = s.quench := by
  unfold State.sendMarks
  induction ms generalizing s with
  | nil => rfl
  | cons m ms ih => rw [List.foldl_cons, ih]; rfl
@[simp] theorem State.sendMarks_meas (s : State) (ms : List Nat) :
    (s.sendMarks ms).meas = s.meas := by
  unfold State.sendMarks
  induction ms generalizing s with
  | nil => rfl
  | cons m ms ih => rw [List.foldl_cons, ih]; rfl
@[simp] theorem State.sendMarks_trip (s : State) (ms : List Nat) :
    (s.sendMarks ms).trip = s.trip := by
  unfold State.sendMarks
  induction ms generalizing s with
  | nil => rfl
  | cons m ms ih => rw [List.foldl_cons, ih]; rfl
@[simp] theorem State.sendMarks_zones (s : State) (ms : List Nat) :
    (s.sendMarks ms).zones = s.zones := by
  unfold State.sendMarks
  induction ms generalizing s with
  | nil => rfl
  | cons m ms ih => rw [List.foldl_cons, ih]; rfl
@[simp] theorem State.sendMarks_store (s : State) (ms : List Nat) :
    (s.sendMarks ms).store = s.store := by
  unfold State.sendMarks
  induction ms generalizing s with
  | nil => rfl
  | cons m ms ih => rw [List.foldl_cons, ih]; rfl
@[simp] theorem State.sendMarks_inputs (s : State) (ms : List Nat) :
    (s.sendMarks ms).inputs = s.inputs := by
  unfold State.sendMarks
  induction ms generalizing s with
  | nil => rfl
  | cons m ms ih => rw [List.foldl_cons, ih]; rfl
@[simp] theorem State.sendMarks_pending (s : State) (ms : List Nat) :
    (s.sendMarks ms).pending = s.pending := by
  unfold State.sendMarks
  induction ms generalizing s with
  | nil => rfl
  | cons m ms ih => rw [List.foldl_cons, ih]; rfl

@[simp] theorem State.warnRaise_cfg (s : State) : (s.warnRaise).cfg = s.cfg := rfl
@[simp] theorem State.warnRaise_seq (s : State) : (s.warnRaise).seq = s.seq := rfl
@[simp] theorem State.warnRaise_travel (s : State) : (s.warnRaise).travel = s.travel := rfl
@[simp] theorem State.warnRaise_power (s : State) : (s.warnRaise).power = s.power := rfl
@[simp] theorem State.warnRaise_quench (s : State) : (s.warnRaise).quench = s.quench := rfl
@[simp] theorem State.warnRaise_meas (s : State) : (s.warnRaise).meas = s.meas := rfl
@[simp] theorem State.warnRaise_trip (s : State) : (s.warnRaise).trip = s.trip := rfl
@[simp] theorem State.warnRaise_zones (s : State) :
    (s.warnRaise).zones = s.zones.onOpen (·.warnFlag s.heatingZone) := rfl
@[simp] theorem State.warnRaise_store (s : State) : (s.warnRaise).store = s.store := rfl
@[simp] theorem State.warnRaise_link (s : State) : (s.warnRaise).link = s.link := rfl
@[simp] theorem State.warnRaise_inputs (s : State) : (s.warnRaise).inputs = s.inputs := rfl
@[simp] theorem State.warnRaise_pending (s : State) : (s.warnRaise).pending = s.pending := rfl

@[simp] theorem State.handTravel_cfg (s : State) (a : Admitted) :
    (s.handTravel a).cfg = s.cfg := by
  unfold State.handTravel; split <;> rfl
@[simp] theorem State.handTravel_power (s : State) (a : Admitted) :
    (s.handTravel a).power = s.power := by
  unfold State.handTravel; split <;> rfl
@[simp] theorem State.handTravel_quench (s : State) (a : Admitted) :
    (s.handTravel a).quench = s.quench := by
  unfold State.handTravel; split <;> rfl
@[simp] theorem State.handTravel_meas (s : State) (a : Admitted) :
    (s.handTravel a).meas = s.meas := by
  unfold State.handTravel; split <;> rfl
@[simp] theorem State.handTravel_trip (s : State) (a : Admitted) :
    (s.handTravel a).trip = s.trip := by
  unfold State.handTravel; split <;> rfl
@[simp] theorem State.handTravel_zones (s : State) (a : Admitted) :
    (s.handTravel a).zones = s.zones := by
  unfold State.handTravel; split <;> rfl
@[simp] theorem State.handTravel_store (s : State) (a : Admitted) :
    (s.handTravel a).store = s.store := by
  unfold State.handTravel; split <;> rfl
@[simp] theorem State.handTravel_link (s : State) (a : Admitted) :
    (s.handTravel a).link = s.link := by
  unfold State.handTravel; split <;> rfl
@[simp] theorem State.handTravel_inputs (s : State) (a : Admitted) :
    (s.handTravel a).inputs = s.inputs := by
  unfold State.handTravel; split <;> rfl
@[simp] theorem State.handTravel_pending (s : State) (a : Admitted) :
    (s.handTravel a).pending = s.pending := by
  unfold State.handTravel; split <;> rfl

@[simp] theorem State.handZones_cfg (s : State) (a : Admitted) :
    (s.handZones a).cfg = s.cfg := by
  unfold State.handZones; dsimp only; split <;> rfl
@[simp] theorem State.handZones_seq (s : State) (a : Admitted) :
    (s.handZones a).seq = s.seq := by
  unfold State.handZones; dsimp only; split <;> rfl
@[simp] theorem State.handZones_travel (s : State) (a : Admitted) :
    (s.handZones a).travel = s.travel := by
  unfold State.handZones; dsimp only; split <;> rfl
@[simp] theorem State.handZones_power (s : State) (a : Admitted) :
    (s.handZones a).power = s.power := by
  unfold State.handZones; dsimp only; split <;> rfl
@[simp] theorem State.handZones_quench (s : State) (a : Admitted) :
    (s.handZones a).quench = s.quench := by
  unfold State.handZones; dsimp only; split <;> rfl
@[simp] theorem State.handZones_meas (s : State) (a : Admitted) :
    (s.handZones a).meas = s.meas := by
  unfold State.handZones; dsimp only; split <;> rfl
@[simp] theorem State.handZones_trip (s : State) (a : Admitted) :
    (s.handZones a).trip = s.trip := by
  unfold State.handZones; dsimp only; split <;> rfl
@[simp] theorem State.handZones_store (s : State) (a : Admitted) :
    (s.handZones a).store = s.store := by
  unfold State.handZones; dsimp only; split <;> rfl
@[simp] theorem State.handZones_link (s : State) (a : Admitted) :
    (s.handZones a).link = s.link := by
  unfold State.handZones; dsimp only; split <;> rfl
@[simp] theorem State.handZones_inputs (s : State) (a : Admitted) :
    (s.handZones a).inputs = s.inputs := by
  unfold State.handZones; dsimp only; split <;> rfl
@[simp] theorem State.handZones_pending (s : State) (a : Admitted) :
    (s.handZones a).pending = s.pending := by
  unfold State.handZones; dsimp only; split <;> rfl

@[simp] theorem State.handSpindle_cfg (s : State) (a : Admitted) :
    (s.handSpindle a).cfg = s.cfg := by
  unfold State.handSpindle; split <;> simp_all
@[simp] theorem State.handSpindle_seq (s : State) (a : Admitted) :
    (s.handSpindle a).seq = s.seq := by
  unfold State.handSpindle; split <;> simp_all
@[simp] theorem State.handSpindle_travel (s : State) (a : Admitted) :
    (s.handSpindle a).travel = (match a.step.spin? with
        | some r => s.travel.setSpindle r
        | none => s.travel) := by
  unfold State.handSpindle; split <;> simp_all
@[simp] theorem State.handSpindle_power (s : State) (a : Admitted) :
    (s.handSpindle a).power = s.power := by
  unfold State.handSpindle; split <;> simp_all
@[simp] theorem State.handSpindle_quench (s : State) (a : Admitted) :
    (s.handSpindle a).quench = s.quench := by
  unfold State.handSpindle; split <;> simp_all
@[simp] theorem State.handSpindle_meas (s : State) (a : Admitted) :
    (s.handSpindle a).meas = s.meas := by
  unfold State.handSpindle; split <;> simp_all
@[simp] theorem State.handSpindle_trip (s : State) (a : Admitted) :
    (s.handSpindle a).trip = s.trip := by
  unfold State.handSpindle; split <;> simp_all
@[simp] theorem State.handSpindle_zones (s : State) (a : Admitted) :
    (s.handSpindle a).zones = s.zones := by
  unfold State.handSpindle; split <;> simp_all
@[simp] theorem State.handSpindle_store (s : State) (a : Admitted) :
    (s.handSpindle a).store = s.store := by
  unfold State.handSpindle; split <;> simp_all
@[simp] theorem State.handSpindle_link (s : State) (a : Admitted) :
    (s.handSpindle a).link = s.link := by
  unfold State.handSpindle; split <;> simp_all
@[simp] theorem State.handSpindle_inputs (s : State) (a : Admitted) :
    (s.handSpindle a).inputs = s.inputs := by
  unfold State.handSpindle; split <;> simp_all
@[simp] theorem State.handSpindle_pending (s : State) (a : Admitted) :
    (s.handSpindle a).pending = s.pending := by
  unfold State.handSpindle; split <;> simp_all

end Sys2Proof.Machine
end

