-- ==== Sys2Proof/Laws/Ops.lean ====
section
/-! SUPPORT. What the arithmetic, the queues of the link and the pages of the store can do, each operation once. -/

namespace Sys2Proof.Machine

/-! ### Arithmetic (R1) -/

/-- The rounded quotient lies within half a divisor of the exact one. -/
theorem roundDiv_nearest (n : Int) (d : Nat) (h : 0 < d) :
    (2 * (roundDiv n d * d - n)).natAbs ≤ d := by
  unfold roundDiv
  have hd : (0 : Int) < 2 * d := by omega
  split
  · have h1 := Int.emod_add_mul_ediv (2 * n + d) ((2 * d : Nat) : Int)
    have h2 := Int.emod_nonneg (2 * n + d) (b := ((2 * d : Nat) : Int)) (by omega)
    have h3 := Int.emod_lt_of_pos (2 * n + d) (b := ((2 * d : Nat) : Int)) (by omega)
    push_cast at h1 h2 h3 ⊢
    generalize (2 * n + (d : Int)) / (2 * d) = q at *
    generalize (2 * n + (d : Int)) % (2 * d) = r at *
    have : 2 * (d : Int) * q = 2 * (q * d) := by ring
    omega
  · have h1 := Int.emod_add_mul_ediv (2 * (-n) + d) ((2 * d : Nat) : Int)
    have h2 := Int.emod_nonneg (2 * (-n) + d) (b := ((2 * d : Nat) : Int)) (by omega)
    have h3 := Int.emod_lt_of_pos (2 * (-n) + d) (b := ((2 * d : Nat) : Int)) (by omega)
    push_cast at h1 h2 h3 ⊢
    generalize (2 * (-n) + (d : Int)) / (2 * d) = q at *
    generalize (2 * (-n) + (d : Int)) % (2 * d) = r at *
    have : 2 * (d : Int) * q = 2 * (q * d) := by ring
    have h4 : -q * (d : Int) = -(q * d) := by ring
    rw [h4]
    omega

/-- Rounding is symmetric about 0. -/
theorem roundDiv_neg (n : Int) (d : Nat) (h : 0 < d) : roundDiv (-n) d = -roundDiv n d := by
  have small : ((0 : Int) + d) / ((2 * d : Nat) : Int) = 0 :=
    Int.ediv_eq_zero_of_lt (by omega) (by push_cast; omega)
  unfold roundDiv
  rcases lt_trichotomy n 0 with hn | rfl | hn
  · rw [if_pos (by omega), if_neg (by omega), neg_neg]
  · have e : (2 : Int) * 0 + d = 0 + d := by omega
    simp only [neg_zero, le_refl, if_true, e, small]
  · rw [if_neg (by omega), if_pos (by omega), neg_neg]

theorem clampInt_bounds (lo hi x : Int) (h : lo ≤ hi) :
    lo ≤ clampInt lo hi x ∧ clampInt lo hi x ≤ hi := by
  unfold clampInt; omega

theorem clampInt_id (lo hi x : Int) (h1 : lo ≤ x) (h2 : x ≤ hi) : clampInt lo hi x = x := by
  unfold clampInt; omega

/-- The planned speed moves by at most `a` and does not pass the target (R52). -/
theorem approach_bounds (cur target a : Int) (h : 0 ≤ a) :
    (approach cur target a - cur).natAbs ≤ a.toNat ∧
      min cur target ≤ approach cur target a ∧ approach cur target a ≤ max cur target := by
  unfold approach
  split <;> omega

theorem isqrtGo_spec (k n acc : Nat) (h1 : acc * acc ≤ n)
    (h2 : n < (acc + 2 ^ k) * (acc + 2 ^ k)) :
    isqrtGo k n acc * isqrtGo k n acc ≤ n ∧ n < (isqrtGo k n acc + 1) * (isqrtGo k n acc + 1) := by
  induction k generalizing acc with
  | zero => exact ⟨h1, h2⟩
  | succ k ih =>
    unfold isqrtGo
    split
    · rename_i h
      refine ih _ h ?_
      have e : acc + 2 ^ k + 2 ^ k = acc + 2 ^ (k + 1) := by rw [pow_succ]; omega
      rwa [e]
    · rename_i h
      exact ih _ h1 (Nat.lt_of_not_le h)

/-- The integer square root (R52). -/
theorem isqrt_spec (n : Nat) : isqrt n * isqrt n ≤ n ∧ n < (isqrt n + 1) * (isqrt n + 1) := by
  refine isqrtGo_spec _ n 0 (by simp) ?_
  rw [Nat.zero_add, ← pow_add]
  have h1 : n < 2 ^ (n.log2 + 1) := Nat.lt_log2_self
  exact lt_of_lt_of_le h1 (Nat.pow_le_pow_right (by decide) (by omega))

/-- A count held in 32 bits stays in the signed range (R48). -/
theorem count32_range (x : Int) : -2147483648 ≤ count32 x ∧ count32 x < 2147483648 := by
  unfold count32
  split
  · assumption
  · exact ⟨Int.le_bmod (by decide), Int.bmod_lt (by decide)⟩

theorem count32_fits (x : Int) (h : -2147483648 ≤ x) (h' : x < 2147483648) : count32 x = x :=
  if_pos ⟨h, h'⟩

/-! ### Fields of the link (R184) -/

theorem be2_fits (n : Nat) (h : n < 65536) : be2 n = [byteOf (n / 256), byteOf n] := by
  unfold be2
  rw [if_pos h]

theorem be4_fits (n : Nat) (h : n < 4294967296) :
    be4 n = [byteOf (n / 16777216), byteOf (n / 65536), byteOf (n / 256), byteOf n] := by
  unfold be4
  rw [if_pos h]

theorem twos_fits (range : Nat) (x : Int) (h : -(range : Int) ≤ 2 * x) (h' : 2 * x < range) :
    twos range x = (x % range).toNat := if_pos ⟨h, h'⟩

/-! ### The output side of the link (R188, R191) -/

/-- Starting a frame leaves the receive side alone, and leaves an idle transmitter only with nothing to send (R191). -/
theorem Link.transmit_cases (l : Link) :
    (l.transmit = l ∧ (l.sending = none → l.out = [] ∧ l.busy = [])) ∨
      (∃ b rest, l.sending = none ∧ l.busy = b :: rest ∧
        l.transmit = { l with busy := rest, sending := some (.reply b.reply) }) ∨
      ∃ f rest, l.sending = none ∧ l.busy = [] ∧ l.out = f :: rest ∧
        l.transmit = { l with out := rest, sending := some f } := by
  obtain ⟨rx, buf, busy, out, snd⟩ := l
  cases snd with
  | some f => exact .inl ⟨rfl, nofun⟩
  | none =>
    cases busy with
    | cons b rest => exact .inr (.inl ⟨b, rest, rfl, rfl, rfl⟩)
    | nil =>
      cases out with
      | cons f rest => exact .inr (.inr ⟨f, rest, rfl, rfl, rfl, rfl⟩)
      | nil => exact .inl ⟨rfl, fun _ => ⟨rfl, rfl⟩⟩

@[simp] theorem Link.transmit_rx (l : Link) :
    l.transmit.rxBytes = l.rxBytes ∧ l.transmit.rxBuffer = l.rxBuffer := by
  rcases l.transmit_cases with ⟨h, _⟩ | ⟨_, _, _, _, h⟩ | ⟨_, _, _, _, _, h⟩ <;> rw [h] <;>
    exact ⟨rfl, rfl⟩

/-- The output queue after starting a frame is the queue or its tail. -/
theorem Link.transmit_out (l : Link) : l.transmit.out = l.out ∨ ∃ f, l.out = f :: l.transmit.out := by
  rcases l.transmit_cases with ⟨h, _⟩ | ⟨_, _, _, _, h⟩ | ⟨f, _, _, _, ho, h⟩ <;> rw [h]
  · exact .inl rfl
  · exact .inl rfl
  · exact .inr ⟨f, ho⟩

/-- A notice is the last frame placed, behind everything of another kind (R191). -/
theorem Link.placeNotice_eq (l : Link) (n : Notice) :
    l.placeNotice n =
      Link.transmit { l with out := l.out.filter (fun f => !f.isNotice n.kind) ++ [.notice n] } := rfl

/-! ### Pages of the store (R170) -/

theorem mapPagesFrom_getD (f : Nat → Page → Page) (ps : List Page) (k i : Nat) (h : i < ps.length) :
    (mapPagesFrom f k ps).getD i .free = f (k + i) (ps.getD i .free) := by
  induction ps generalizing k i with
  | nil => exact absurd h (Nat.not_lt_zero _)
  | cons p ps ih =>
    cases i with
    | zero => rfl
    | succ i =>
      have := ih (k + 1) i (Nat.lt_of_succ_lt_succ h)
      rw [show k + 1 + i = k + (i + 1) by omega] at this
      simpa [mapPagesFrom] using this

theorem mapPagesFrom_length (f : Nat → Page → Page) (ps : List Page) (k : Nat) :
    (mapPagesFrom f k ps).length = ps.length := by
  induction ps generalizing k with
  | nil => rfl
  | cons p ps ih => simp [mapPagesFrom, ih]

/-- A page of the changed store is the change of the page. -/
theorem Store.page_mapPages (st : Store) (f : Nat → Page → Page) (i : Nat)
    (h : i < st.pages.length) : (st.mapPages f).page i = f i (st.page i) := by
  have := mapPagesFrom_getD f st.pages 0 i h
  rw [Nat.zero_add] at this
  exact this

@[simp] theorem Store.mapPages_length (st : Store) (f : Nat → Page → Page) :
    (st.mapPages f).pages.length = st.pages.length := mapPagesFrom_length f st.pages 0

@[simp] theorem Store.page_clearMarks (st : Store) (i : Nat) : st.clearMarks.page i = st.page i := rfl

end Sys2Proof.Machine
end

