-- ==== Sys2Proof/Laws/PerInstr.lean ====
section
/-! SUPPORT. A fact of every command as syntax: a well-formed request command carries a tag, and its frame's body, kind, tag and
payload, fits the 640 bytes of R185 and R190. -/

namespace Sys2Proof.Laws

open Sys2Proof.Machine

/-! ### Lengths of what a request is written as -/

theorem items_length (xs : List Int) : (xs.flatMap beS4).length = 4 * xs.length := by
  induction xs with
  | nil => rfl
  | cons x xs ih => 
    rw [List.flatMap_cons, List.length_append, ih, List.length_cons]
    simp only [beS4, be4, List.length_cons, List.length_nil]
    omega

theorem windows_length (ws : List WindowRecord) :
    (ws.flatMap WindowRecord.encode).length = 9 * ws.length := by
  induction ws with
  | nil => rfl
  | cons w ws ih =>
    rw [List.flatMap_cons, List.length_append, ih, List.length_cons]
    simp only [WindowRecord.encode, be4, List.length_cons, List.length_append, List.length_nil]
    omega

theorem record_length (r : DataRecord) : r.encode.length = r.bytes := by
  cases r <;> rfl

theorem records_length (rs : List DataRecord) :
    (rs.flatMap DataRecord.encode).length = (rs.map DataRecord.bytes).sum := by
  induction rs with
  | nil => rfl
  | cons r rs ih =>
    rw [List.flatMap_cons, List.length_append, ih, record_length, List.map_cons, List.sum_cons]

theorem encodeItems_length (g n : Nat) (xs : List Int) (h : itemsWf n xs = true) :
    (encodeItems g xs).length = 4 * n + 1 := by
  unfold itemsWf at h
  rw [Bool.and_eq_true, beq_iff_eq] at h
  unfold encodeItems
  rw [List.length_cons, items_length, h.1]

/-- The payload of a well-formed request is at most 638 bytes. -/
theorem payload_fits (r : Request) (h : r.wf = true) : r.payload.length ≤ 638 := by
  cases r
  case configureMachine xs => have := encodeItems_length 1 13 xs h; simp only [Request.payload]; omega
  case configureQuench xs => have := encodeItems_length 2 13 xs h; simp only [Request.payload]; omega
  case configureMeasure xs => have := encodeItems_length 3 49 xs h; simp only [Request.payload]; omega
  case configureTrip xs => have := encodeItems_length 4 25 xs h; simp only [Request.payload]; omega
  case configureFlow xs => have := encodeItems_length 5 2 xs h; simp only [Request.payload]; omega
  case configurePrestart xs => have := encodeItems_length 6 1 xs h; simp only [Request.payload]; omega
  case startStream g ws =>
    have h1 : ws.length ≤ 69 := by simp only [Request.wf, Bool.and_eq_true, decide_eq_true_eq] at h; exact h.1
    have h2 : (be8 g).length = 8 := rfl
    simp only [Request.payload, List.length_append, List.length_cons, windows_length, h2]
    omega
  case profileData p rs =>
    have h1 : (rs.map DataRecord.bytes).sum ≤ 636 := by
      simp only [Request.wf, Bool.and_eq_true, decide_eq_true_eq] at h; exact h.1.2
    simp only [Request.payload, List.length_cons, records_length]
    omega
  all_goals
    simp [Request.payload, StepRecord.encode, beS4, be2, be4, be8]

end Sys2Proof.Laws

namespace Sys2Proof.Laws.FrameFits

/-- A well-formed request command carries a tag of 1..255 and a payload that fits its frame; an event carries no request. -/
def Statement (i : Instr) : Prop :=
  i.wf = true → ∀ (t : Byte) (r : Request), i.request = some (t, r) → t ≠ 0 ∧ r.payload.length ≤ 638

/-- The statement of a request command. -/
theorem of_request {i : Instr} {t : Byte} {r : Request} (h : i.request = some (t, r)) : Statement i := by
  intro hw t' r' h'
  rw [h, Option.some.injEq, Prod.mk.injEq] at h'
  obtain ⟨rfl, rfl⟩ := h'
  unfold Instr.wf at hw
  rw [h] at hw
  dsimp only at hw
  rw [Bool.and_eq_true] at hw
  exact ⟨by simpa [Tag.wf] using hw.1, payload_fits r hw.2⟩

/-- The statement of an event. -/
theorem of_event {i : Instr} (h : i.request = none) : Statement i := by
  intro _ t r h'
  rw [h] at h'
  cases h'

theorem status (tag : Byte) :
    Statement (.status tag) := of_request rfl
theorem configureMachine (tag : Byte) (items : List Int) :
    Statement (.configureMachine tag items) := of_request rfl
theorem configureQuench (tag : Byte) (items : List Int) :
    Statement (.configureQuench tag items) := of_request rfl
theorem configureMeasure (tag : Byte) (items : List Int) :
    Statement (.configureMeasure tag items) := of_request rfl
theorem configureTrip (tag : Byte) (items : List Int) :
    Statement (.configureTrip tag items) := of_request rfl
theorem configureFlow (tag : Byte) (items : List Int) :
    Statement (.configureFlow tag items) := of_request rfl
theorem configurePrestart (tag : Byte) (items : List Int) :
    Statement (.configurePrestart tag items) := of_request rfl
theorem restart (tag : Byte) :
    Statement (.restart tag) := of_request rfl
theorem home (tag : Byte) :
    Statement (.home tag) := of_request rfl
theorem moveTo (tag : Byte) (target : Int) (speed : Nat) :
    Statement (.moveTo tag target speed) := of_request rfl
theorem stop (tag : Byte) :
    Statement (.stop tag) := of_request rfl
theorem startProfile (tag : Byte) (page : Nat) (part : Tag8) :
    Statement (.startProfile tag page part) := of_request rfl
theorem startStream (tag : Byte) (part : Tag8) (windows : List WindowRecord) :
    Statement (.startStream tag part windows) := of_request rfl
theorem step (tag : Byte) (record : StepRecord) :
    Statement (.step tag record) := of_request rfl
theorem trim (tag : Byte) (t sp method : Nat) :
    Statement (.trim tag t sp method) := of_request rfl
theorem inhibitOn (tag : Byte) :
    Statement (.inhibitOn tag) := of_request rfl
theorem inhibitOff (tag : Byte) :
    Statement (.inhibitOff tag) := of_request rfl
theorem forceTrip (tag : Byte) :
    Statement (.forceTrip tag) := of_request rfl
theorem clearTrip (tag : Byte) :
    Statement (.clearTrip tag) := of_request rfl
theorem profileOpen (tag : Byte) (page size zones steps : Nat) (name : Tag8) :
    Statement (.profileOpen tag page size zones steps name) := of_request rfl
theorem profileData (tag : Byte) (page : Nat) (records : List DataRecord) :
    Statement (.profileData tag page records) := of_request rfl
theorem profileClose (tag : Byte) (page : Nat) :
    Statement (.profileClose tag page) := of_request rfl
theorem profileErase (tag : Byte) (page : Nat) :
    Statement (.profileErase tag page) := of_request rfl
theorem profileList (tag : Byte) :
    Statement (.profileList tag) := of_request rfl
theorem recordGet (tag : Byte) (number : Nat) :
    Statement (.recordGet tag number) := of_request rfl
theorem recordRelease (tag : Byte) (number : Nat) :
    Statement (.recordRelease tag number) := of_request rfl
theorem reset : Statement .reset := of_event rfl
theorem frameReceived : Statement .frameReceived := of_event rfl
theorem receiveGapTimeout : Statement .receiveGapTimeout := of_event rfl
theorem dispatch : Statement .dispatch := of_event rfl
theorem frameSent : Statement .frameSent := of_event rfl
theorem positionSample (counts : Int) (rpm : Nat) (refSwitch lowSwitch highSwitch : Bool) : Statement (.positionSample counts rpm refSwitch lowSwitch highSwitch) :=
  of_event rfl
theorem powerUpdate : Statement .powerUpdate := of_event rfl
theorem stepTimerExpiry : Statement .stepTimerExpiry := of_event rfl
theorem prestartTimeout : Statement .prestartTimeout := of_event rfl
theorem requestTimerExpiry (channel : Channel) : Statement (.requestTimerExpiry channel) :=
  of_event rfl
theorem conversionComplete (code : Nat) : Statement (.conversionComplete code) :=
  of_event rfl
theorem calibrationTimerExpiry : Statement .calibrationTimerExpiry := of_event rfl
theorem provingTimerExpiry (circuit : Circuit) : Statement (.provingTimerExpiry circuit) :=
  of_event rfl
theorem dropoutTimerExpiry (circuit : Circuit) : Statement (.dropoutTimerExpiry circuit) :=
  of_event rfl
theorem floodTimerExpiry : Statement .floodTimerExpiry := of_event rfl
theorem pumpIdleTimerExpiry : Statement .pumpIdleTimerExpiry := of_event rfl
theorem coilWaterTimerExpiry : Statement .coilWaterTimerExpiry := of_event rfl
theorem lowCountReached : Statement .lowCountReached := of_event rfl
theorem readyInputChange (level : Bool) : Statement (.readyInputChange level) :=
  of_event rfl
theorem faultInputChange (level : Bool) : Statement (.faultInputChange level) :=
  of_event rfl
theorem emergencyStopInput (level : Bool) : Statement (.emergencyStopInput level) :=
  of_event rfl
theorem encoderFaultInput (level : Bool) : Statement (.encoderFaultInput level) :=
  of_event rfl
theorem stoppingComplete : Statement .stoppingComplete := of_event rfl
theorem arrived : Statement .arrived := of_event rfl
theorem returned : Statement .returned := of_event rfl
theorem turnStoppedActivation : Statement .turnStoppedActivation := of_event rfl
theorem enterRunning : Statement .enterRunning := of_event rfl
theorem admission : Statement .admission := of_event rfl
theorem loaderAppend : Statement .loaderAppend := of_event rfl
theorem byteReceived (byte : Byte) : Statement (.byteReceived byte) :=
  of_event rfl

end Sys2Proof.Laws.FrameFits
end

