-- ==== Sys2Proof/Laws/Quench.lean ====
section
/-! SUPPORT. What the trail operations can do, said once: a request leaves the circuit's last state as asked and the alternation of
R93 intact, marks are set only for want of room, and the other ring is left alone. -/

namespace Sys2Proof.Machine

/-! ### Reading and writing one ring or one circuit -/

@[simp] theorem PerRing.get_set_self {α : Type} (p : PerRing α) (r : Ring) (x : α) :
    (p.set r x).get r = x := by
  cases r <;> rfl

@[simp] theorem PerRing.get_set_ne {α : Type} (p : PerRing α) {r r' : Ring} (x : α) (h : r' ≠ r) :
    (p.set r x).get r' = p.get r' := by
  cases r <;> cases r' <;> first | rfl | exact absurd rfl h

@[simp] theorem PerCircuit.get_set_self {α : Type} (p : PerCircuit α) (k : Circuit) (x : α) :
    (p.set k x).get k = x := by
  cases k <;> rfl

@[simp] theorem PerCircuit.get_set_ne {α : Type} (p : PerCircuit α) {k k' : Circuit} (x : α)
    (h : k' ≠ k) : (p.set k x).get k' = p.get k' := by
  cases k <;> cases k' <;> first | rfl | exact absurd rfl h

/-! ### Alternation (R93) -/

/-- The state after the last entry of a trail, from the state before the first. -/
def lastOf (v : Bool) (es : List TrailEntry) : Bool :=
  match es.getLast? with
  | some e => e.on
  | none => v

theorem Quench.lastState_eq (q : Quench) (r : Ring) :
    q.lastState r = lastOf (q.circuit.get r.circuit).valve (q.trail.get r).entries := rfl

theorem lastOf_cons (v : Bool) (e : TrailEntry) (es : List TrailEntry) :
    lastOf v (e :: es) = lastOf e.on es := by
  cases es with
  | nil => rfl
  | cons x xs =>
    have h : (x :: xs).getLast? = some ((x :: xs).getLast (List.cons_ne_nil _ _)) :=
      List.getLast?_eq_some_getLast _
    unfold lastOf
    rw [List.getLast?_cons_cons, h]

theorem alternates_append (v : Bool) (es : List TrailEntry) (e : TrailEntry) :
    alternates v (es ++ [e]) = (alternates v es && (e.on != lastOf v es)) := by
  induction es generalizing v with
  | nil => simp [alternates, lastOf]
  | cons x xs ih => simp [alternates, ih, lastOf_cons, Bool.and_assoc]

theorem alternates_dropLast (v : Bool) (es : List TrailEntry) (h : alternates v es = true) :
    alternates v es.dropLast = true := by
  rcases List.eq_nil_or_concat es with rfl | ⟨xs, x, rfl⟩
  · rfl
  · rw [List.concat_eq_append, alternates_append] at h
    simpa using (Bool.and_eq_true_iff.1 h).1

/-- Without its last entry an alternating trail ends in the opposite state. -/
theorem lastOf_dropLast (v : Bool) (es : List TrailEntry) (h : alternates v es = true)
    (hne : es ≠ []) : lastOf v es.dropLast = !lastOf v es := by
  rcases List.eq_nil_or_concat es with rfl | ⟨xs, x, rfl⟩
  · exact absurd rfl hne
  · rw [List.concat_eq_append, alternates_append] at h
    have h2 := (Bool.and_eq_true_iff.1 h).2
    have h3 : lastOf v (xs ++ [x]) = x.on := by simp [lastOf]
    rw [List.concat_eq_append, h3]
    simp only [List.dropLast_concat]
    cases hx : x.on <;> cases hl : lastOf v xs <;> simp_all

/-! ### Placing an entry (R95, R96) -/

/-- An append adds at the tail, or sets the mark for want of room (R96). -/
theorem Trail.append_cases (t : Trail) (e : TrailEntry) :
    (t.append e = { t with entries := t.entries ++ [e] } ∧ t.entries.length < 16) ∨
      (t.append e = { t with fullMark := true } ∧ 16 ≤ t.entries.length) := by
  unfold Trail.append
  split
  · exact .inl ⟨rfl, by assumption⟩
  · exact .inr ⟨rfl, Nat.le_of_not_lt (by assumption)⟩

theorem Trail.settle_entries (t : Trail) : t.settle.entries = t.entries := by
  unfold Trail.settle; split <;> rfl

theorem Trail.settle_mark (t : Trail) (h : t.settle.fullMark = true) : t.fullMark = true := by
  unfold Trail.settle at h
  split at h
  · cases h
  · exact h

/-- What the placing of an entry leaves: the entry at the tail, the trail less its last entry, or the trail as it was with the mark set
for want of room (R95, R96). -/
theorem Trail.place_cases (t : Trail) (d : Option Dir) (e : TrailEntry) :
    (t.place d e = { t with entries := t.entries ++ [e] } ∧ t.entries.length < 16) ∨
      ((t.place d e).entries = t.entries.dropLast ∧ t.entries ≠ [] ∧
        ((t.place d e).fullMark = true → t.fullMark = true)) ∨
      (t.place d e = { t with fullMark := true } ∧ 16 ≤ t.entries.length) := by
  have key : t.place d e = t.append e ∨
      t.entries ≠ [] ∧ t.place d e = Trail.settle { t with entries := t.entries.dropLast } := by
    unfold Trail.place
    split
    · exact .inl rfl
    · rename_i last hl
      have hne : t.entries ≠ [] := by
        intro h
        rw [h] at hl
        cases hl
      by_cases hb : (match d with | some d => d.beyond e.pos last.pos | none => true) = true
      · exact .inl (if_pos hb)
      · exact .inr ⟨hne, if_neg hb⟩
  rcases key with h | ⟨hne, h⟩ <;> rw [h]
  · rcases Trail.append_cases t e with h | h
    · exact .inl h
    · exact .inr (.inr h)
  · exact .inr (.inl ⟨Trail.settle_entries _, hne, Trail.settle_mark _⟩)

/-- A request for one ring leaves the trail of the other, and every circuit, alone. -/
theorem Quench.request_other (q : Quench) (d : Option Dir) (r r' : Ring) (on : Bool) (p : Int)
    (h : r' ≠ r) : (q.request d r on p).trail.get r' = q.trail.get r' := by
  unfold Quench.request
  split
  · rfl
  · exact PerRing.get_set_ne _ _ h

@[simp] theorem Quench.request_circuit (q : Quench) (d : Option Dir) (r : Ring) (on : Bool) (p : Int) :
    (q.request d r on p).circuit = q.circuit := by
  unfold Quench.request; split <;> rfl

@[simp] theorem Quench.request_q3Owner (q : Quench) (d : Option Dir) (r : Ring) (on : Bool) (p : Int) :
    (q.request d r on p).q3Owner = q.q3Owner := by
  unfold Quench.request; split <;> rfl

@[simp] theorem Quench.request_supplyReady (q : Quench) (d : Option Dir) (r : Ring) (on : Bool)
    (p : Int) : (q.request d r on p).supplyReady = q.supplyReady := by
  unfold Quench.request; split <;> rfl

@[simp] theorem Quench.request_pump (q : Quench) (d : Option Dir) (r : Ring) (on : Bool) (p : Int) :
    (q.request d r on p).pump = q.pump := by
  unfold Quench.request; split <;> rfl

/-- With a free place a request sets no TRAIL_FULL mark (R96). -/
theorem Quench.request_mark (q : Quench) (d : Option Dir) (r : Ring) (on : Bool) (p : Int)
    (h : (q.trail.get r).entries.length < 16)
    (hm : ((q.request d r on p).trail.get r).fullMark = true) : (q.trail.get r).fullMark = true := by
  unfold Quench.request at hm
  split at hm
  · exact hm
  · rw [PerRing.get_set_self] at hm
    rcases Trail.place_cases (q.trail.get r) d ⟨p, on⟩ with ⟨h1, _⟩ | ⟨_, _, h1⟩ | ⟨_, h1⟩
    · rw [h1] at hm; exact hm
    · exact h1 hm
    · omega

/-- With a free place and an alternating trail, a request leaves the circuit's last state as asked (R94, R95). -/
theorem Quench.request_last (q : Quench) (d : Option Dir) (r : Ring) (on : Bool) (p : Int)
    (h : (q.trail.get r).entries.length < 16)
    (ha : alternates (q.circuit.get r.circuit).valve (q.trail.get r).entries = true) :
    (q.request d r on p).lastState r = on := by
  unfold Quench.request
  split
  · assumption
  · rename_i hl
    rw [Quench.lastState_eq] at hl ⊢
    dsimp only
    rw [PerRing.get_set_self]
    rcases Trail.place_cases (q.trail.get r) d ⟨p, on⟩ with ⟨h1, _⟩ | ⟨h1, h2, _⟩ | ⟨_, h1⟩
    · rw [h1]; simp [lastOf]
    · rw [h1, lastOf_dropLast _ _ ha h2]
      cases on <;> cases hv : lastOf (q.circuit.get r.circuit).valve (q.trail.get r).entries <;>
        simp_all
    · omega

/-- A request keeps the bound and the alternation of its trail (R93). -/
theorem Quench.request_alternates (q : Quench) (d : Option Dir) (r : Ring) (on : Bool) (p : Int)
    (hb : (q.trail.get r).entries.length ≤ 16)
    (ha : alternates (q.circuit.get r.circuit).valve (q.trail.get r).entries = true) :
    ((q.request d r on p).trail.get r).entries.length ≤ 16 ∧
      alternates (q.circuit.get r.circuit).valve ((q.request d r on p).trail.get r).entries = true := by
  unfold Quench.request
  split
  · exact ⟨hb, ha⟩
  · rename_i hl
    rw [Quench.lastState_eq] at hl
    dsimp only
    rw [PerRing.get_set_self]
    rcases Trail.place_cases (q.trail.get r) d ⟨p, on⟩ with ⟨h1, h2⟩ | ⟨h1, _, _⟩ | ⟨h1, _⟩
    · rw [h1]
      refine ⟨by simp; omega, ?_⟩
      rw [alternates_append, ha]
      simpa using fun h => hl h.symm
    · rw [h1]
      refine ⟨?_, alternates_dropLast _ _ ha⟩
      rw [List.length_dropLast]; omega
    · rw [h1]; exact ⟨hb, ha⟩

end Sys2Proof.Machine
end

