-- ==== Sys2Proof/Laws/Scan.lean ====
section
/-! SUPPORT. The activation of a step and the entry to RUNOUT, each said once for a state whose trails have room: what they leave in
every block; and a source step that comes to the queue head. -/

namespace Sys2Proof.Machine

/-! ### Trail changes that raise nothing (R96) -/

/-- A trail change that sets no mark is only that change. -/
theorem State.onTrails_calm (s : State) (f : Quench → Quench)
    (h : (f s.quench).trailFull = true → s.quench.trailFull = true) : s.onTrails f = s.onQuench f := by
  unfold State.onTrails State.raiseIf
  dsimp only
  rw [if_neg]
  intro hh
  rw [Bool.and_eq_true, State.onQuench_quench] at hh
  rw [h hh.1] at hh
  exact absurd hh.2 (by decide)

/-- Two requests with a free place each set no mark. -/
theorem Quench.requests_mark (q : Quench) (d : Option Dir) (a b : Bool) (p p' : Int)
    (h1 : q.trail.q1.entries.length < 16) (h2 : q.trail.q2.entries.length < 16)
    (h : ((q.request d .q1 a p).request d .q2 b p').trailFull = true) : q.trailFull = true := by
  unfold Quench.trailFull at h ⊢
  rw [Bool.or_eq_true] at h ⊢
  rcases h with h | h
  · have e := Quench.request_other (q.request d .q1 a p) d .q2 .q1 b p' (by decide)
    have hm : ((q.request d .q1 a p).trail.get .q1).fullMark = true := by rw [← e]; exact h
    exact .inl (Quench.request_mark q d .q1 a p h1 hm)
  · have e := Quench.request_other q d .q1 .q2 a p (by decide)
    have hl : ((q.request d .q1 a p).trail.get .q2).entries.length < 16 := by rw [e]; exact h2
    have hm := Quench.request_mark (q.request d .q1 a p) d .q2 b p' hl h
    rw [e] at hm
    exact .inr hm

/-- A setting is a request for the state it asks for, KEEP for the one the trail ends in (R94). -/
theorem Quench.setting_eq (q : Quench) (d : Option Dir) (r : Ring) (x : QSetting) (p : Int) :
    q.setting d r x p =
      q.request d r (match x with | .keep => q.lastState r | .on => true | .off => false) p := by
  cases x
  · exact (if_pos rfl).symm
  · rfl
  · rfl

theorem Quench.settings_mark (q : Quench) (d : Option Dir) (a b : QSetting) (p p' : Int)
    (h1 : q.trail.q1.entries.length < 16) (h2 : q.trail.q2.entries.length < 16)
    (h : ((q.setting d .q1 a p).setting d .q2 b p').trailFull = true) : q.trailFull = true := by
  rw [Quench.setting_eq, Quench.setting_eq] at h
  exact Quench.requests_mark q d _ _ p p' h1 h2 h

theorem State.offRequests_calm (s : State) (d : Option Dir) (p : Int) (h : HasTrailRoom s) :
    s.onTrails (·.offRequests d p) = s.onQuench (·.offRequests d p) :=
  s.onTrails_calm _ (Quench.requests_mark s.quench d false false p p h.1 h.2)

/-- After the OFF requests of a run-out both circuits end OFF (R95). -/
theorem Quench.offRequests_last (q : Quench) (d : Option Dir) (p : Int)
    (h1 : q.trail.q1.entries.length < 16) (h2 : q.trail.q2.entries.length < 16)
    (a : ∀ r : Ring, alternates (q.circuit.get r.circuit).valve (q.trail.get r).entries = true) :
    (q.offRequests d p).lastState .q1 = false ∧ (q.offRequests d p).lastState .q2 = false := by
  unfold Quench.offRequests
  constructor
  · have h := Quench.request_last q d .q1 false p h1 (a .q1)
    rw [Quench.lastState_eq] at h ⊢
    rw [Quench.request_other _ d .q2 .q1 false p (by decide)]
    simpa using h
  · refine Quench.request_last _ d .q2 false p ?_ ?_
    · rw [Quench.request_other _ d .q1 .q2 false p (by decide)]; exact h2
    · rw [Quench.request_other _ d .q1 .q2 false p (by decide)]; simpa using a .q2

/-! ### Pieces of an activation (R33) -/

/-- The spindle command changes nothing else of the carriage but the low count (R64, R65). -/
theorem Travel.setSpindle_same (t : Travel) (r : Nat) :
    (t.setSpindle r).position = t.position ∧ (t.setSpindle r).decision = t.decision ∧
      (t.setSpindle r).mode = t.mode ∧ (t.setSpindle r).targetSpeed = t.targetSpeed ∧
      (t.setSpindle r).atRest = t.atRest ∧ (t.setSpindle r).spindleCommand = r := by
  unfold Travel.setSpindle Travel.atRest Travel.stopped
  split <;> simp_all

theorem Travel.awake_same (t : Travel) :
    t.awake.position = t.position ∧ t.awake.spindleCommand = t.spindleCommand := by
  unfold Travel.awake
  split <;> exact ⟨rfl, rfl⟩

/-- The transfer of an activation, by the shadow's method and the step's zone (R41). -/
theorem Seq.transferAt_eq (q : Seq) (z : Option Nat) :
    q.transferAt z = { q with
      trimT := (q.trimsAt z).1, trimS := (q.trimsAt z).2.1, shadow := (q.trimsAt z).2.2 } := by
  unfold Seq.transferAt Seq.transfer Seq.trimsAt
  rcases q with ⟨⟩
  rename_i shadow _ _ _ _ _ _ _
  rcases shadow with _ | ⟨t, v, _ | _ | _⟩ <;> rcases z with _ | z <;> try rfl
  rename_i lastZone _ _ _ _ _ _ _ _ _ _ _
  by_cases h : lastZone = some z
  · subst h
    dsimp only
    rw [if_neg (by simp), if_pos rfl]
  · have h' : (some z != lastZone) = true := by
      rw [bne_iff_ne]; exact fun e => h e.symm
    dsimp only
    rw [if_pos (by simp [h']), if_neg h]

/-- The Sequencer's own share of an activation (R33, R34). -/
theorem Seq.activated_eq (q : Seq) (a : Admitted) :
    q.activated a = { q with
      active := some a, next := none, turnPhase := .none, stepTimer := a.step.duration?,
      passDir := (if a.turn then a.dir else q.passDir), lastZone := a.step.zone?.or q.lastZone,
      trimT := (q.trimsAt a.step.zone?).1, trimS := (q.trimsAt a.step.zone?).2.1,
      shadow := (q.trimsAt a.step.zone?).2.2,
      heatSpeed := (if a.turn then none else q.heatSpeed) } := by
  unfold Seq.activated
  rw [Seq.transferAt_eq]
  cases a.turn <;> cases h : a.step.zone? <;> rfl

/-- A setting leaves every circuit as it is; the valves change at the release alone (R94, R99). -/
theorem Quench.settings_circuit (q : Quench) (d : Option Dir) (a b : QSetting) (p p' : Int) :
    ((q.setting d .q1 a p).setting d .q2 b p').circuit = q.circuit := by
  rw [Quench.setting_eq, Quench.setting_eq, Quench.request_circuit, Quench.request_circuit]

/-- With a free place a request is what `Asked` says (R94, R95). -/
theorem Quench.request_asked (q : Quench) (d : Option Dir) (r : Ring) (on : Bool) (p : Int)
    (h : (q.trail.get r).entries.length < 16) : Asked q (q.request d r on p) d r on p := by
  unfold Asked Quench.request
  dsimp only
  by_cases hl : q.lastState r = on
  · rw [if_pos hl, if_pos hl]
  · rw [if_neg hl, if_neg hl, PerRing.get_set_self]
    unfold Trail.place
    cases he : (q.trail.get r).entries.getLast? with
    | none =>
      have hn : (q.trail.get r).entries = [] := List.getLast?_eq_none_iff.1 he
      simp [Trail.append, hn, trailCap]
    | some e =>
      dsimp only
      have ha : (q.trail.get r).append ⟨p, on⟩ =
          { q.trail.get r with entries := (q.trail.get r).entries ++ [⟨p, on⟩] } := if_pos h
      have hs : Trail.settle { q.trail.get r with entries := (q.trail.get r).entries.dropLast } =
          ⟨(q.trail.get r).entries.dropLast,
            (q.trail.get r).fullMark && decide (1 < (q.trail.get r).entries.length)⟩ := by
        unfold Trail.settle
        cases hx : (q.trail.get r).entries with
        | nil => rw [hx] at he; cases he
        | cons x xs => cases xs <;> simp
      rw [ha, hs] <;> cases d <;> rfl

/-- Two requests, one for each ring, are what `Asked` says of each. -/
theorem Quench.requests_asked (q : Quench) (d : Option Dir) (a b : Bool) (p : Int)
    (h1 : q.trail.q1.entries.length < 16) (h2 : q.trail.q2.entries.length < 16) :
    Asked q ((q.request d .q1 a p).request d .q2 b p) d .q1 a p ∧
      Asked q ((q.request d .q1 a p).request d .q2 b p) d .q2 b p := by
  have o : ∀ x : Quench, (x.request d .q2 b p).trail.get .q1 = x.trail.get .q1 := fun x =>
    x.request_other d .q2 .q1 b p (by decide)
  have o' : (q.request d .q1 a p).trail.get .q2 = q.trail.get .q2 :=
    q.request_other d .q1 .q2 a p (by decide)
  refine ⟨?_, ?_⟩
  · have k := q.request_asked d .q1 a p h1
    unfold Asked at k ⊢
    rw [o]; exact k
  · have k := (q.request d .q1 a p).request_asked d .q2 b p (by rw [o']; exact h2)
    unfold Asked at k ⊢
    rw [k, o', Quench.lastState_eq, Quench.lastState_eq, o', Quench.request_circuit]

/-- A request changes the trails alone. -/
theorem Quench.request_eq (q : Quench) (d : Option Dir) (r : Ring) (on : Bool) (p : Int) :
    q.request d r on p = { q with trail := (q.request d r on p).trail } := by
  unfold Quench.request
  split <;> rfl

theorem Quench.requests_eq (q : Quench) (d : Option Dir) (a b : Bool) (p : Int) :
    (q.request d .q1 a p).request d .q2 b p =
      { q with trail := ((q.request d .q1 a p).request d .q2 b p).trail } := by
  have h1 := Quench.request_eq (q.request d .q1 a p) d .q2 b p
  have h2 := q.request_eq d .q1 a p
  generalize (q.request d .q1 a p).request d .q2 b p = x at h1 ⊢
  generalize q.request d .q1 a p = y at h1 h2
  rw [h1, h2]

/-- Both settings of an activated motion step, with room in the trails (R6, R94). -/
theorem Quench.settings_asked (q : Quench) (d : Option Dir) (a b : QSetting) (p : Int)
    (h1 : q.trail.q1.entries.length < 16) (h2 : q.trail.q2.entries.length < 16) :
    let q' := (q.setting d .q1 a p).setting d .q2 b p
    q' = { q with trail := q'.trail } ∧ Asked q q' d .q1 (a.asks (q.lastState .q1)) p ∧
      Asked q q' d .q2 (b.asks (q.lastState .q2)) p := by
  have hs : ∀ (x : Quench) (r : Ring) (w : QSetting),
      x.setting d r w p = x.request d r (w.asks (x.lastState r)) p := fun x r w => by
    rw [Quench.setting_eq]; cases w <;> rfl
  dsimp only
  rw [hs, hs]
  have hl : (q.request d .q1 (a.asks (q.lastState .q1)) p).lastState .q2 = q.lastState .q2 := by
    rw [Quench.lastState_eq, q.request_other d .q1 .q2 _ p (by decide), Quench.request_circuit,
      ← Quench.lastState_eq]
  rw [hl]
  exact ⟨q.requests_eq d _ _ p, q.requests_asked d _ _ p h1 h2⟩

/-- The opening of a circuit (R104). -/
theorem Quench.openValve_eq (q : Quench) (c : QuenchCfg) (k : Circuit) :
    q.openValve c k = { q with circuit := q.circuit.set k ((q.circuit.get k).opened c k) } := by
  unfold Quench.openValve CircuitState.opened
  split
  · cases k <;> rfl
  · split <;> rfl

/-- The Quench Unit's share of an activation, with room in the trails (R94, R102). -/
theorem State.handQuench_spec (s : State) (a : Admitted) (h : HasTrailRoom s) :
    s.handQuench a = { s with quench := (s.handQuench a).quench } ∧
      (match a.step with
        | .heat _ _ _ _ x y _ => (s.handQuench a).quench =
            (s.quench.setting s.seq.passDir .q1 x a.start).setting s.seq.passDir .q2 y a.start
        | .move _ _ x y => (s.handQuench a).quench =
            (s.quench.setting s.seq.passDir .q1 x a.start).setting s.seq.passDir .q2 y a.start
        | .spray _ => (s.handQuench a).quench = { s.quench with
            circuit := { s.quench.circuit with
              q3 := s.quench.circuit.q3.opened s.cfg.quench .q3 }
            q3Owner := .spray, floodTimer := none }
        | _ => (s.handQuench a).quench = s.quench) := by
  unfold State.handQuench
  cases a.step
  case heat =>
    dsimp only
    rw [s.onTrails_calm _ (Quench.settings_mark _ _ _ _ _ _ h.1 h.2)]
    exact ⟨rfl, rfl⟩
  case move =>
    dsimp only
    rw [s.onTrails_calm _ (Quench.settings_mark _ _ _ _ _ _ h.1 h.2)]
    exact ⟨rfl, rfl⟩
  case spray =>
    refine ⟨rfl, ?_⟩
    simp only [State.onQuench, Quench.sprayOpen, Quench.openValve_eq]
    rfl
  all_goals exact ⟨rfl, rfl⟩

/-- A source in the WARN class is a published value's or a watch's: what else a state holds does not make it present (R131). -/
theorem State.present_warn (s t : State) (src : Source) (h : s.cfg.trip.classOf src = .warn)
    (hp : t.power = s.power) (hm : t.meas = s.meas) (ht : t.trip = s.trip)
    (hq : t.quench.circuit = s.quench.circuit) : t.present src = s.present src := by
  cases src <;> simp_all [State.present, TripCfg.classOf, Quench.flowLow]

/-- A zone's change at its index, as a map over all. -/
theorem modify_eq_mapIdx {α : Type} (xs : List α) (i : Nat) (f : α → α) :
    xs.modify i f = xs.mapIdx fun j x => if i = j then f x else x := by
  apply List.ext_getElem?
  intro j
  rw [List.getElem?_modify, List.getElem?_mapIdx]
  by_cases h : i = j <;> simp [h]

/-- A step's zone is handed to Zone Accounting with the WARN flag of a source that is present then (R135, R155, R158). -/
theorem State.handZones_spec (s : State) (a : Admitted) :
    (s.handZones a).zones = { s.zones with
      openRec := s.zones.openRec.map fun r => { r with
        current := a.step.zone?.map fun z => ⟨z, match a.step with | .heat .. => true | _ => false⟩
        lastZone := a.step.zone?.or r.lastZone
        zones := if s.presentIn .warn = [] then r.zones
          else r.zones.mapIdx fun i e =>
            if a.step.zone? = some i then { e with acc := { e.acc with warn := true } } else e } } := by
  unfold State.handZones
  dsimp only
  cases hw : s.presentIn .warn with
  | nil =>
    simp only [List.isEmpty_nil, Bool.not_true, Bool.and_false, Bool.false_eq_true, if_false,
      State.onZones_zones, Zones.onOpen, if_true]
    cases s.zones.openRec with
    | none => rfl
    | some r => cases a.step <;> rfl
  | cons x xs =>
    simp only [reduceCtorEq, if_false, List.isEmpty_cons, Bool.not_false, Bool.and_true]
    cases hz : a.step.zone? with
    | none =>
      simp only [Option.isSome_none, Bool.false_eq_true, if_false, State.onZones_zones, Zones.onOpen]
      cases s.zones.openRec with
      | none => rfl
      | some r =>
        have hm : r.zones.mapIdx (fun _ e => e) = r.zones :=
          List.ext_getElem? fun i => by simp [List.getElem?_mapIdx]
        simp [OpenRecord.activated, hm]
    | some z =>
      simp only [Option.isSome_some, if_true, State.onZones_zones, Zones.onOpen]
      cases s.zones.openRec with
      | none => rfl
      | some r =>
        simp only [Option.map_some, OpenRecord.activated, OpenRecord.warnFlag, OpenRecord.onZone,
          modify_eq_mapIdx, Option.some.injEq]
        cases a.step <;> rfl

/-- The notices of some marks (R32). -/
@[simp] theorem State.sendMarks_link (s : State) (ms : List Nat) :
    (s.sendMarks ms).link = s.link.marked ms := by
  unfold State.sendMarks Link.marked
  induction ms generalizing s with
  | nil => rfl
  | cons m ms ih => exact ih (s.notify (.mark m))

/-- What the Travel Unit's and the spindle's share of an activation leave (R33, R55, R57, R64). -/
theorem State.handTravel_spec (s : State) (a : Admitted) :
    let speed : Nat := match a.step with
      | .heat _ v _ _ _ _ _ => trimmedSpeed v s.seq.trimS
      | .move _ v _ _ => v
      | _ => 0
    let heats : Bool := match a.step with | .heat .. => true | _ => false
    let t := (s.handTravel a).travel
    (s.handTravel a).seq = { s.seq with
        heatSpeed := if heats then some speed else s.seq.heatSpeed } ∧
      t.position = s.travel.position ∧ t.decision = .none ∧ t.stopPoint = none ∧
      t.mode = (if a.step.isMotion then .scan else .hold) ∧ t.targetSpeed = speed ∧
      (∀ d, a.step.isMotion = true → a.dir = some d → t.dir = some d) ∧
      t.spindleCommand = s.travel.spindleCommand := by
  have aw := s.travel.awake_same
  unfold State.handTravel
  cases a.step <;> refine ⟨rfl, ?_, rfl, rfl, rfl, rfl, ?_, ?_⟩ <;>
    simp +contextual [State.onTravel, State.onSeq, Travel.orderScan, Travel.orderHold, aw,
      ScanStep.isMotion]

theorem Travel.setSpindle_more (t : Travel) (r : Nat) :
    (t.setSpindle r).stopPoint = t.stopPoint ∧ (t.setSpindle r).dir = t.dir := by
  unfold Travel.setSpindle
  split <;> exact ⟨rfl, rfl⟩

/-- With room in the trails an activation leaves what `Activated` says (R33). -/
theorem State.activate_spec (s : State) (a : Admitted) (h : HasTrailRoom s) :
    Activated s (s.activate a) a := by
  unfold State.activate
  dsimp only
  generalize hv : (s.onSeq (·.activated a)).sendMarks a.marks = v
  have vseq : v.seq = s.seq.activated a := by rw [← hv]; simp
  have vtr : v.travel = s.travel := by rw [← hv]; simp
  obtain ⟨e1, e2, e3, e4, e5, e6, e7, e8⟩ := v.handTravel_spec a
  generalize hu : ((v.handTravel a).handZones a).handSpindle a = u
  have room : HasTrailRoom u := by rw [← hu, ← hv]; simpa [HasTrailRoom] using h
  have uq : u.quench = s.quench := by rw [← hu, ← hv]; simp
  have ul : u.link = s.link.marked a.marks := by rw [← hu, ← hv]; simp
  have useq : u.seq = (v.handTravel a).seq := by rw [← hu]; simp
  have ucfg : u.cfg = s.cfg := by rw [← hu, ← hv]; simp
  have uz : u.zones = ((v.handTravel a).handZones a).zones := by rw [← hu]; simp
  have kp : Keeps s u [.seq, .travel, .quench, .zones, .link] := by rw [← hu, ← hv]; simp [Keeps]
  have pw : (v.handTravel a).presentIn .warn = s.presentIn .warn := by
    unfold State.presentIn
    refine List.filter_congr fun src _ => ?_
    by_cases hc : s.cfg.trip.classOf src = .warn
    · rw [State.present_warn s (v.handTravel a) src hc (by rw [← hv]; simp) (by rw [← hv]; simp)
        (by rw [← hv]; simp) (by rw [← hv]; simp)]
      simp [State.classOf, ← hv]
    · have h1 : (s.classOf src == .warn) = false := by simpa [State.classOf] using hc
      have h2 : ((v.handTravel a).classOf src == .warn) = false := by
        simpa [State.classOf, ← hv] using hc
      rw [h1, h2, Bool.and_false, Bool.and_false]
  have sp : u.travel = (match a.step.spin? with
      | some r => (v.handTravel a).travel.setSpindle r
      | none => (v.handTravel a).travel) := by
    rw [← hu]
    unfold State.handSpindle
    cases a.step.spin? <;> simp
  have sd := fun r => (v.handTravel a).travel.setSpindle_same r
  have sm := fun r => (v.handTravel a).travel.setSpindle_more r
  obtain ⟨q1, q2⟩ := u.handQuench_spec a room
  rw [q1]
  unfold Activated
  dsimp only
  have aeq := s.seq.activated_eq a
  rw [vseq, aeq] at e1 e6
  have dirs : u.seq.passDir = if a.turn then a.dir else s.seq.passDir := by rw [useq, e1]
  refine ⟨?_, ul, ?_, ?_, ?_, ?_, ?_, ?_, ?_, ?_, ?_, ?_⟩
  · rw [useq, e1] <;> cases a.step <;> rfl
  · rw [sp, ← vtr, ← e2]; cases a.step.spin? <;> simp [sd]
  · rw [sp, ← e3]; cases a.step.spin? <;> simp [sd]
  · rw [sp, ← e4]; cases a.step.spin? <;> simp [sm]
  · rw [sp, ← e5]; cases a.step.spin? <;> simp [sd]
  · refine Eq.trans ?_ (e6.trans (by cases a.step <;> rfl))
    rw [sp]; cases a.step.spin? <;> simp [sd]
  · intro d h1 h2
    rw [sp, ← e7 d h1 h2]; cases a.step.spin? <;> simp [sm]
  · rw [sp, ← vtr, ← e8]; cases a.step.spin? <;> simp [sd]
  · have st := fun (x y : QSetting) => Quench.settings_asked s.quench u.seq.passDir x y a.start h.1 h.2
    rw [← dirs]
    rw [uq] at q2
    cases hs : a.step <;> rw [hs] at q2 <;> dsimp only at q2 ⊢ <;> rw [q2]
    · exact st _ _
    · exact st _ _
    · rw [ucfg]
  · rw [uz, State.handZones_spec, pw]
    rw [show (v.handTravel a).zones = s.zones by rw [← hv]; simp] <;> cases a.step <;> rfl
  · unfold Keeps at kp ⊢
    simpa using kp

/-! ### The entry to RUNOUT (R45, R46) -/

theorem summariesFrom_length (c : EndCause) (l : Option Nat) (i : Nat) (es : List ZoneEntry) :
    (summariesFrom c l i es).length = es.length := by
  induction es generalizing i with
  | nil => rfl
  | cons e es ih => simp [summariesFrom, ih]

/-- The three ways the motion of a run-out can go (R46). -/
theorem State.runoutMotion_cases (s : State) (b : Bool) (hs : s.seq.state = .runout) :
    (s.runoutMotion b = (s.onTravel Travel.standing).runoutComplete ∧
        s.quench.trailsEmpty = true ∧ s.travel.atRest = true) ∨
      (s.runoutMotion b = s.onTravel Travel.orderStopping ∧
        (s.quench.trailsEmpty = true ∧ s.travel.atRest = false ∨
          s.quench.trailsEmpty = false ∧ b = true)) ∨
      (s.runoutMotion b = s.onTravel (·.orderDrain s.seq.passDir s.runoutSpeed) ∧
        s.quench.trailsEmpty = false ∧ b = false) := by
  unfold State.runoutMotion
  rw [if_pos hs]
  split
  · rename_i h1
    split
    · rename_i h2
      exact .inl ⟨rfl, h1, h2⟩
    · rename_i h2
      exact .inr (.inl ⟨rfl, .inl ⟨h1, Bool.eq_false_iff.2 h2⟩⟩)
  · rename_i h1
    split
    · rename_i h2
      exact .inr (.inl ⟨rfl, .inr ⟨Bool.eq_false_iff.2 h1, h2⟩⟩)
    · rename_i h2
      exact .inr (.inr ⟨rfl, Bool.eq_false_iff.2 h1, Bool.eq_false_iff.2 h2⟩)

/-- A flush closes Q3 when a SPRAY step leaves Active (R45, R102). -/
theorem State.flush_unsprayed (s : State) : s.flush.quench = s.unsprayed := by
  unfold State.flush State.unsprayed Quench.sprayClose Quench.closeValve
  dsimp only
  rcases s.seq.active with _ | ⟨_ | _ | _ | _ | _ | _ | _ | _ | _, _, _, _, _, _, _, _⟩ <;> rfl

/-- The close of Q3 leaves the trails and the ring circuits. -/
theorem State.unsprayed_rings (s : State) :
    s.unsprayed.trail = s.quench.trail ∧ s.unsprayed.circuit.q1 = s.quench.circuit.q1 ∧
      s.unsprayed.circuit.q2 = s.quench.circuit.q2 := by
  unfold State.unsprayed
  split
  · split <;> exact ⟨rfl, rfl, rfl⟩
  · exact ⟨rfl, rfl, rfl⟩

/-- Orders to the generator leave position and spindle command. -/
theorem Travel.orders_same (t : Travel) :
    (t.orderStopping.position = t.position ∧ t.orderStopping.spindleCommand = t.spindleCommand) ∧
      (∀ d v, (t.orderDrain d v).position = t.position ∧
        (t.orderDrain d v).spindleCommand = t.spindleCommand) := by
  refine ⟨?_, ?_⟩
  · unfold Travel.orderStopping
    split <;> exact ⟨rfl, rfl⟩
  · intro d v
    unfold Travel.orderDrain Travel.orderStopping
    repeat' split
    all_goals exact ⟨rfl, rfl⟩

theorem Quench.idleStart_trail (q : Quench) (c : QuenchCfg) :
    (q.idleStart c).trail = q.trail ∧ (q.idleStart c).circuit = q.circuit := by
  unfold Quench.idleStart Quench.pumpOff
  split_ifs <;> exact ⟨rfl, rfl⟩

/-- What orders to the generator leave in RUNOUT (R46, R51). -/
theorem Travel.orders_spec (t : Travel) (h : t.mode ≠ .disabled) :
    (t.orderStopping.mode = .stopping ∧ t.orderStopping.targetSpeed = 0) ∧
      ∀ d v, d ≠ none → (t.orderDrain d v).mode = .drain ∧ (t.orderDrain d v).dir = d ∧
        (t.orderDrain d v).targetSpeed = v := by
  refine ⟨?_, ?_⟩
  · unfold Travel.orderStopping
    rw [if_neg h]
    exact ⟨rfl, rfl⟩
  · rintro (_ | d) v hd
    · exact absurd rfl hd
    · unfold Travel.orderDrain
      dsimp only
      rw [if_neg h]
      exact ⟨rfl, rfl, rfl⟩

/-- With alternating trails and room in them the entry to RUNOUT leaves what `EnteredRunout` says (R45, R46, R95). -/
theorem State.runoutEntry_spec (s : State) (c : EndCause) (stop : Option Int) (ht : TrailInv s)
    (hr : HasTrailRoom s) : EnteredRunout s (s.runoutEntry c stop) c stop := by
  unfold State.runoutEntry
  dsimp only
  generalize hu : (((((s.onSeq ({ · with lastEnd := some c })).enter .runout
    (.scanEnd c)).zeroOrder.setSpindle 0).sendMarks (headMarks s.seq.queue)).flush) = u
  have useq : u.seq = { s.seq with
      state := .runout, turnPhase := .none, queue := [], next := none, active := none,
      source := .none, flow := .flowing, loader := none, stepTimer := none, prestartTimer := none,
      lastEnd := some c } := by rw [← hu]; simp
  have utr : u.travel = s.travel.setSpindle 0 := by rw [← hu]; simp
  have uz : u.zones = { s.zones with
      openRec := s.zones.openRec.map ({ · with current := none }) } := by rw [← hu]; simp; rfl
  have ust : u.store = s.store := by rw [← hu]; simp
  have ucfg : u.cfg = s.cfg := by rw [← hu]; simp
  have ul : u.link = (s.link.stated .runout (.scanEnd c)).marked (headMarks s.seq.queue) := by
    rw [← hu]; simp [Link.stated]
  have kp : Keeps s u [.seq, .power, .travel, .quench, .store, .zones, .link] := by
    rw [← hu]; simp [Keeps]
  have off : u.power = s.power.off := by rw [← hu]; simp; rfl
  have uq : u.quench = s.unsprayed := by
    rw [← hu, State.flush_unsprayed]
    simp [State.unsprayed]
  have rings := s.unsprayed_rings
  have room : HasTrailRoom u := by unfold HasTrailRoom; rw [uq, rings.1]; exact hr
  have alt : ∀ r : Ring,
      alternates (u.quench.circuit.get r.circuit).valve (u.quench.trail.get r).entries = true := by
    intro r
    rw [uq, rings.1]
    have h := (ht r).2
    cases r <;> simp only [Ring.circuit, PerCircuit.get, rings] <;> exact h
  have ss := s.travel.setSpindle_same 0
  have pos : u.travel.position = s.travel.position ∧ u.travel.spindleCommand = 0 := by
    rw [utr]; exact ⟨ss.1, ss.2.2.2.2.2⟩
  rw [u.offRequests_calm _ _ room]
  have last := Quench.offRequests_last u.quench u.seq.passDir (stop.getD u.travel.position) room.1
    room.2 alt
  have asked := Quench.requests_asked u.quench u.seq.passDir false false
    (stop.getD u.travel.position) room.1 room.2
  have same := Quench.requests_eq u.quench u.seq.passDir false false (stop.getD u.travel.position)
  have hv : u.onQuench (·.offRequests u.seq.passDir (stop.getD u.travel.position)) =
      { u with quench := u.quench.offRequests u.seq.passDir (stop.getD u.travel.position) } := rfl
  rw [hv]
  unfold Quench.offRequests at last ⊢
  generalize (u.quench.request u.seq.passDir .q1 false (stop.getD u.travel.position)).request
    u.seq.passDir .q2 false (stop.getD u.travel.position) = q at last asked same ⊢
  have dir : u.seq.passDir = s.seq.passDir := by rw [useq]
  rw [uq, dir, pos.1] at asked
  rw [uq] at same
  have rest : u.travel.atRest = true ↔ s.travel.planSpeed = 0 ∧ s.travel.still = 20 := by
    rw [utr, ss.2.2.2.2.1]
    simp [Travel.atRest, Travel.stopped]
  have os := u.travel.orders_same
  have mode : u.travel.mode = s.travel.mode := by rw [utr]; exact ss.2.2.1
  have speed : u.runoutSpeed = s.seq.heatSpeed.getD s.cfg.machine.drainSpeed := by
    unfold State.runoutSpeed; rw [useq, ucfg]
  have motion : ∀ t : Travel, t.position = u.travel.position →
      t.spindleCommand = u.travel.spindleCommand →
      ¬(q.trailsEmpty = true ∧ s.travel.planSpeed = 0 ∧ s.travel.still = 20) →
      (s.travel.mode ≠ .disabled →
        if q.trailsEmpty = true ∨ s.seq.turnPhase = .return ∨ s.seq.passDir = none then
          t.mode = .stopping ∧ t.targetSpeed = 0
        else t.mode = .drain ∧ t.dir = s.seq.passDir ∧
          t.targetSpeed = s.seq.heatSpeed.getD s.cfg.machine.drainSpeed) →
      EnteredRunout s { u with quench := q, travel := t } c stop := by
    intro t h1 h2 h3 h4
    unfold EnteredRunout
    simp only [if_neg h3]
    refine ⟨useq, off, asked.1, asked.2, same, last.1, last.2, h1.trans pos.1, h2.trans pos.2,
      fun h => absurd h h3, fun _ => h4, fun _ => ⟨ul, ust, uz⟩, fun h => absurd h h3, ?_⟩
    simpa [Keeps] using kp
  rcases State.runoutMotion_cases { u with quench := q } (s.seq.turnPhase == .return)
    (by rw [useq]) with ⟨h1, h2, h3⟩ | ⟨h1, h2⟩ | ⟨h1, h2, h3⟩ <;> rw [h1]
  · have it := q.idleStart_trail u.cfg.quench
    have h2 : q.trailsEmpty = true := h2
    have now : (q.idleStart u.cfg.quench).trailsEmpty = true ∧ s.travel.planSpeed = 0 ∧
        s.travel.still = 20 := by
      refine ⟨?_, rest.1 h3⟩
      unfold Quench.trailsEmpty at h2 ⊢
      rw [it.1]; exact h2
    have rq : (State.runoutComplete
        (State.onTravel { u with quench := q } Travel.standing)).quench = q.idleStart u.cfg.quench := by
      simp
    unfold EnteredRunout
    rw [rq]
    simp only [if_pos now]
    refine ⟨?_, ?_, ?_, ?_, ?_, ?_, ?_, ?_, ?_, ?_, fun h => absurd now h, fun h => absurd now h, ?_, ?_⟩
    · simp [useq]
    · simpa using off
    · unfold Asked at asked ⊢; rw [it.1]; exact asked.1
    · unfold Asked at asked ⊢; rw [it.1]; exact asked.2
    · rw [it.1, ← same, ucfg]; rfl
    · simpa [Quench.lastState, it] using last.1
    · simpa [Quench.lastState, it] using last.2
    · simpa [Travel.standing] using pos.1
    · simpa [Travel.standing] using pos.2
    · intro _; simp [Travel.standing, mode]
    · intro _
      have cl : ∀ r, u.zones.openRec = some r →
          (State.runoutComplete (State.onTravel { u with quench := q } Travel.standing)).link =
            (u.link.stated .idle (.scanEnd c)).placeNotice (.record r.number) := by
        intro r hr
        have := State.closeRecord_link_some ((State.onTravel { u with quench := q }
          Travel.standing).enter .idle (.scanEnd c)) c none r (by simpa using hr)
        simpa [State.runoutComplete, useq, Link.stated] using this
      have cn : u.zones.openRec = none →
          (State.runoutComplete (State.onTravel { u with quench := q } Travel.standing)).link =
            u.link.stated .idle (.scanEnd c) := by
        intro hr
        have := State.closeRecord_link_none ((State.onTravel { u with quench := q }
          Travel.standing).enter .idle (.scanEnd c)) c none (by simpa using hr)
        simpa [State.runoutComplete, useq, Link.stated] using this
      refine ⟨by simp [ust], ?_, ?_⟩
      · intro r hr
        refine ⟨?_, r.close c (s.seq.scanClock.getD 0) none, ?_, ?_⟩
        · rw [cl { r with current := none } (by rw [uz, hr]; rfl), ul]
        · refine ⟨rfl, rfl, rfl, rfl, rfl, rfl, rfl, rfl, rfl, ?_, ?_⟩
          · simp [OpenRecord.close, summariesFrom_length]
          · intro hp; simp [OpenRecord.close, verdictOf, hp]
        · simp [useq, uz, hr, Zones.close, OpenRecord.close]
      · intro hr
        refine ⟨by rw [cn (by rw [uz, hr]; rfl), ul], ?_⟩
        have hz : { s.zones with openRec := none } = s.zones := by rw [← hr]
        simp [useq, uz, hr, Zones.close, hz]
    · simpa [Keeps] using kp
  · refine motion _ os.1.1 os.1.2 ?_ ?_
    · rintro ⟨k1, k2⟩
      rcases h2 with ⟨_, h3⟩ | ⟨h3, _⟩
      · exact absurd (rest.2 k2) (by rw [h3]; decide)
      · exact absurd k1 (by rw [h3]; decide)
    · intro hm
      rw [if_pos]
      · exact (u.travel.orders_spec (by rw [mode]; exact hm)).1
      · rcases h2 with ⟨h3, _⟩ | ⟨_, h3⟩
        · exact .inl h3
        · exact .inr (.inl (by simpa using h3))
  · refine motion _ (os.2 _ _).1 (os.2 _ _).2 (fun k => absurd k.1 (by rw [h2]; decide)) ?_
    intro hm
    have sp := u.travel.orders_spec (by rw [mode]; exact hm)
    have hq : q.trailsEmpty = false := h2
    have hx : s.seq.turnPhase ≠ .return := by simpa using h3
    cases hd : s.seq.passDir with
    | none =>
      rw [if_pos (.inr (.inr rfl))]
      have hd' : u.seq.passDir = none := dir.trans hd
      dsimp only
      rw [hd']
      exact sp.1
    | some d =>
      rw [if_neg (by simp [hq, hx])]
      have k := sp.2 (some d) u.runoutSpeed (by simp)
      have hd' : u.seq.passDir = some d := dir.trans hd
      dsimp only
      rw [hd']
      rw [← speed]
      exact k

/-! ### Steps that do not act at the head -/

/-- With no source step at the head nothing acts there (R29). -/
theorem State.sourceHead_id (s : State)
    (h : ∀ q rest, firstNonMark s.seq.queue = some (q, rest) → q.step.isSource = false) :
    s.sourceHead = s := by
  unfold State.sourceHead
  split
  · rename_i q _ hq
    have hs := h _ _ hq
    cases he : q.step <;> simp_all [ScanStep.isSource]
  · rfl

theorem State.vacantCheck_id (s : State) (h : s.vacant = false) : s.vacantCheck = s := by
  unfold State.vacantCheck
  rw [h]
  rfl

/-- A queue of marks has no other step. -/
theorem firstNonMark_onlyMarks (q : List QStep) (h : onlyMarks q = true) : firstNonMark q = none := by
  induction q with
  | nil => rfl
  | cons x xs ih =>
    unfold onlyMarks at h ih
    rw [List.all_cons, Bool.and_eq_true] at h
    unfold firstNonMark
    rw [if_pos h.1]
    exact ih h.2

/-! ### A run-out complete at once, and ages -/

@[simp] theorem Travel.standing_mode (t : Travel) : t.standing.mode = t.mode := rfl
@[simp] theorem Travel.standing_planSpeed (t : Travel) : t.standing.planSpeed = t.planSpeed := rfl
@[simp] theorem Travel.standing_still (t : Travel) : t.standing.still = t.still := rfl
@[simp] theorem Travel.standing_position (t : Travel) : t.standing.position = t.position := rfl
@[simp] theorem Travel.standing_spindleCommand (t : Travel) :
    t.standing.spindleCommand = t.spindleCommand := rfl

@[simp] theorem Meas.older_get (m : Meas) (c : Channel) :
    m.older.chan.get c = (m.chan.get c).older := by
  cases c <;> rfl

/-! ### A source step behind marks (R29, R38) -/

theorem dropFirstNonMark_marks (kept rest : List QStep) (q : QStep) (hq : q.step.isMark = false)
    (hk : ∀ m ∈ kept, m.step.isMark = true) : dropFirstNonMark (kept ++ q :: rest) = kept ++ rest := by
  induction kept with
  | nil => simp [dropFirstNonMark, hq]
  | cons m ms ih =>
    simp only [List.mem_cons, forall_eq_or_imp] at hk
    simp [dropFirstNonMark, hk.1, ih hk.2]

theorem firstNonMark_marks (kept rest : List QStep) (q : QStep) (hq : q.step.isMark = false)
    (hk : ∀ m ∈ kept, m.step.isMark = true) : firstNonMark (kept ++ q :: rest) = some (q, rest) := by
  induction kept with
  | nil => simp [firstNonMark, hq]
  | cons m ms ih =>
    simp only [List.mem_cons, forall_eq_or_imp] at hk
    simp [firstNonMark, hk.1, ih hk.2]

/-- A source step behind marks acts as R38 says and leaves the rest of the queue. -/
theorem State.sourceHead_source (s : State) (kept rest : List QStep) (q : QStep)
    (hs : q.step.isSource = true) (hk : ∀ m ∈ kept, m.step.isMark = true)
    (e : s.seq.queue = kept ++ q :: rest) : s.sourceHead = s.sourced (kept ++ rest) q.step := by
  have hm : q.step.isMark = false := by
    cases h : q.step <;> simp_all [ScanStep.isSource, ScanStep.isMark]
  have h1 := firstNonMark_marks kept rest q hm hk
  have h2 := dropFirstNonMark_marks kept rest q hm hk
  cases h : q.step <;> rw [h] at hs <;> try cases hs
  · simp [State.sourceHead, State.sourced, e, h1, h2, h, State.notify, State.onSeq, State.onLink]
  · simp only [State.sourceHead, State.sourced, State.resumeLoader, e, h1, h]
    cases hl : s.seq.loader with
    | none => simp [hl, State.onSeq, e, h2]
    | some l => by_cases hx : l.index < s.store.stepCount l.page <;>
        simp [hl, hx, State.onSeq, e, h2]
  · simp [State.sourceHead, State.sourced, e, h1, h2, h, State.onSeq]

end Sys2Proof.Machine
end

