-- ==== Sys2Proof/Laws/Serve.lean ====
section
/-! SUPPORT. What a request command does by the link's three cases, said once: taken at once it is served, otherwise it arrives as
R187 says. Later proofs cite these and do not unfold `exec`. -/

namespace Sys2Proof.Machine

variable {s : State} {tag : Byte}

/-- A request taken at once is served (log 6). -/
theorem request_taken (r : Request) (f : State → State) (h : Taken s tag) :
    s.request tag r f = f s := by
  unfold State.request
  rw [if_neg h.1, if_pos h.2]

/-- Tag 0 is discarded (R187). -/
theorem request_untagged (r : Request) (f : State → State) : s.request 0#8 r f = s := by
  unfold State.request
  rw [if_pos rfl]

/-- A request that cannot be taken at once arrives (R187). -/
theorem request_arrives (r : Request) (f : State → State) (h : tag ≠ 0#8)
    (hb : s.takesAtOnce = false) : s.request tag r f = s.onLink (·.arrive (r.raw tag)) := by
  unfold State.request
  rw [if_neg h, hb]
  rfl

/-! ### Every request command, taken at once -/

theorem exec_status_taken (h : Taken s tag) :
    exec (.status tag) s = .next (s.serveStatus tag) :=
  congrArg Host.Outcome.next (request_taken _ _ h)

theorem exec_configureMachine_taken (xs : List Int) (h : Taken s tag) :
    exec (.configureMachine tag xs) s = .next (s.serveMachine tag xs) :=
  congrArg Host.Outcome.next (request_taken _ _ h)

theorem exec_configureQuench_taken (xs : List Int) (h : Taken s tag) :
    exec (.configureQuench tag xs) s = .next (s.serveQuenchGroup tag xs) :=
  congrArg Host.Outcome.next (request_taken _ _ h)

theorem exec_configureMeasure_taken (xs : List Int) (h : Taken s tag) :
    exec (.configureMeasure tag xs) s = .next (s.serveMeasure tag xs) :=
  congrArg Host.Outcome.next (request_taken _ _ h)

theorem exec_configureTrip_taken (xs : List Int) (h : Taken s tag) :
    exec (.configureTrip tag xs) s = .next (s.serveTripGroup tag xs) :=
  congrArg Host.Outcome.next (request_taken _ _ h)

theorem exec_configureFlow_taken (xs : List Int) (h : Taken s tag) :
    exec (.configureFlow tag xs) s = .next (s.serveFlowGroup tag xs) :=
  congrArg Host.Outcome.next (request_taken _ _ h)

theorem exec_configurePrestart_taken (xs : List Int) (h : Taken s tag) :
    exec (.configurePrestart tag xs) s = .next (s.servePrestartGroup tag xs) :=
  congrArg Host.Outcome.next (request_taken _ _ h)

theorem exec_restart_taken (h : Taken s tag) :
    exec (.restart tag) s = .next (s.serveRestart tag) :=
  congrArg Host.Outcome.next (request_taken _ _ h)

theorem exec_home_taken (h : Taken s tag) :
    exec (.home tag) s = .next (s.serveHome tag) :=
  congrArg Host.Outcome.next (request_taken _ _ h)

theorem exec_moveTo_taken (p : Int) (v : Nat) (h : Taken s tag) :
    exec (.moveTo tag p v) s = .next (s.serveMoveTo tag p v) :=
  congrArg Host.Outcome.next (request_taken _ _ h)

theorem exec_stop_taken (h : Taken s tag) :
    exec (.stop tag) s = .next (s.serveStop tag) :=
  congrArg Host.Outcome.next (request_taken _ _ h)

theorem exec_startProfile_taken (p : Nat) (g : Tag8) (h : Taken s tag) :
    exec (.startProfile tag p g) s = .next (s.serveStartProfile tag p g) :=
  congrArg Host.Outcome.next (request_taken _ _ h)

theorem exec_startStream_taken (g : Tag8) (ws : List WindowRecord) (h : Taken s tag) :
    exec (.startStream tag g ws) s = .next (s.serveStartStream tag g ws) :=
  congrArg Host.Outcome.next (request_taken _ _ h)

theorem exec_step_taken (r : StepRecord) (h : Taken s tag) :
    exec (.step tag r) s = .next (s.serveStep tag r) :=
  congrArg Host.Outcome.next (request_taken _ _ h)

theorem exec_trim_taken (t sp m : Nat) (h : Taken s tag) :
    exec (.trim tag t sp m) s = .next (s.serveTrim tag t sp m) :=
  congrArg Host.Outcome.next (request_taken _ _ h)

theorem exec_inhibitOn_taken (h : Taken s tag) :
    exec (.inhibitOn tag) s = .next (s.serveInhibitOn tag) :=
  congrArg Host.Outcome.next (request_taken _ _ h)

theorem exec_inhibitOff_taken (h : Taken s tag) :
    exec (.inhibitOff tag) s = .next (s.serveInhibitOff tag) :=
  congrArg Host.Outcome.next (request_taken _ _ h)

theorem exec_forceTrip_taken (h : Taken s tag) :
    exec (.forceTrip tag) s = .next (s.serveForceTrip tag) :=
  congrArg Host.Outcome.next (request_taken _ _ h)

theorem exec_clearTrip_taken (h : Taken s tag) :
    exec (.clearTrip tag) s = .next (s.serveClearTrip tag) :=
  congrArg Host.Outcome.next (request_taken _ _ h)

theorem exec_profileOpen_taken (p z n k : Nat) (g : Tag8) (h : Taken s tag) :
    exec (.profileOpen tag p z n k g) s = .next (s.serveOpen tag p z n k g) :=
  congrArg Host.Outcome.next (request_taken _ _ h)

theorem exec_profileData_taken (p : Nat) (rs : List DataRecord) (h : Taken s tag) :
    exec (.profileData tag p rs) s = .next (s.serveData tag p rs) :=
  congrArg Host.Outcome.next (request_taken _ _ h)

theorem exec_profileClose_taken (p : Nat) (h : Taken s tag) :
    exec (.profileClose tag p) s = .next (s.serveClose tag p) :=
  congrArg Host.Outcome.next (request_taken _ _ h)

theorem exec_profileErase_taken (p : Nat) (h : Taken s tag) :
    exec (.profileErase tag p) s = .next (s.serveErase tag p) :=
  congrArg Host.Outcome.next (request_taken _ _ h)

theorem exec_profileList_taken (h : Taken s tag) :
    exec (.profileList tag) s = .next (s.serveList tag) :=
  congrArg Host.Outcome.next (request_taken _ _ h)

theorem exec_recordGet_taken (n : Nat) (h : Taken s tag) :
    exec (.recordGet tag n) s = .next (s.serveGet tag n) :=
  congrArg Host.Outcome.next (request_taken _ _ h)

theorem exec_recordRelease_taken (n : Nat) (h : Taken s tag) :
    exec (.recordRelease tag n) s = .next (s.serveRelease tag n) :=
  congrArg Host.Outcome.next (request_taken _ _ h)

end Sys2Proof.Machine
end

