-- ==== Sys2Proof/Tests/Slice0.lean ====
section
/-! SUPPORT. Tests of the model: the checks of WellFormed, the spec's own worked numbers, and for every statement with hypotheses
a concrete state and operands that meet them. Expected values come from the spec's text or are worked by hand from its rules. -/

namespace Sys2Proof.Tests

open Sys2Proof Sys2Proof.Machine

/-! ### Small states -/

/-- What `f` reads in the state after a command. -/
def after {α : Type} (c : Instr) (s : State) (f : State → α) : Option α :=
  match exec c s with
  | .next t => some (f t)
  | _ => none

/-- IDLE, referenced, the drive holding at 0, nothing being sent. -/
def idle : State :=
  { State.reset with
    seq := { Seq.reset with state := .idle }
    travel := { Travel.reset with referenced := true, mode := .hold, driveEnable := true }
    link := .empty }

/-- UNREFERENCED, as after RESET, the notice sent. -/
def cold : State := { State.reset with link := .empty }

/-- The state with another Sequencer state. -/
def at_ (st : SeqState) (s : State) : State := { s with seq := { s.seq with state := st } }

/-- The DWELL of the axle program (1.7, step 1). -/
def dwell : ScanStep := .dwell 1800 300 0 (some 120)
/-- Its body section (1.7, step 3) and its spline (1.7, step 5). -/
def body : ScanStep := .heat 900000 800 9000 1 .keep .on none
def spline : ScanStep := .heat 960000 1000 4000 2 .keep .keep none

def admitted (step : ScanStep) (start stop : Int) (dir : Option Dir) : Admitted :=
  { step := step, origin := .profile, index := 3, start := start, stop := stop, dir := dir,
    turn := false, marks := [] }

def bodyActive : Admitted := admitted body 180000 900000 (some .forward)
def splineNext : Admitted := admitted spline 900000 960000 (some .forward)
def dwellActive : Admitted := admitted dwell 120000 120000 none

/-- Record 43 of the axle scan (8.8), its three windows as 1.7 has them. -/
def record43 : OpenRecord :=
  { number := 43, part := 0, page := some 4, source := .profile, warn := false
    zones := [⟨⟨.total, 1150, 1400⟩, .start⟩, ⟨⟨.density, 8500, 9500⟩, .start⟩,
      ⟨⟨.density, 3600, 4400⟩, .start⟩]
    current := some ⟨1, true⟩, lastZone := some 1, ceiling := .none, pOut := 720, powered := true }

/-- RUNNING in the body section at 600 mm and 8.00 mm/s, Q1 spraying, one entry of Q2 ahead, a conversion under way with one request
behind it, a reply waiting behind a notice. -/
def running : State :=
  { idle with
    seq := { idle.seq with
      state := .running, active := some bodyActive, next := some splineNext
      queue := [⟨.mark 9, .profile, 6⟩], source := .profile, programEnd := true
      loader := some ⟨4, 6, .exhausted⟩, passDir := some .forward, nominal := 960000
      zoneCount := 3, lastZone := some 1, scanClock := some 6000, heatSpeed := some 800 }
    travel := { idle.travel with
      position := 600000, plan := 600000000, planSpeed := 8000, speed := 800, still := 0
      mode := .scan, targetSpeed := 800, dir := some .forward, spindleCommand := 120, rpm := 120 }
    power := { idle.power with
      pOut := 720, code := 1179, enable := true, readySeen := true, acc := 640 }
    quench := { idle.quench with
      trail := ⟨.empty, ⟨[⟨580000, true⟩], false⟩⟩
      circuit := ⟨⟨true, .proved, none, none⟩, .closed, .closed⟩, supplyReady := true, pump := true }
    meas := { idle.meas with
      converter := some ⟨.invP, .sample, 4, 2, 20484, false⟩
      waiting := [⟨.flow2, .calibration, 3, false⟩] }
    zones := { closed := [], openRec := some record43, nextNumber := 44 }
    link := { Link.empty with
      out := [.reply ⟨0x81#8, 7#8, .ok, []⟩], sending := some (.notice (.mark 1)) }
    inputs := { idle.inputs with ready := true } }

/-- TRIPPING under STOP, entered from `running`. -/
def tripping : State :=
  { running with
    seq := { running.seq with
      state := .tripping, active := none, next := none, queue := [], source := .none, loader := none
      lastEnd := some .tripped }
    power := running.power.zero.enableOff
    trip := { running.trip with
      latch := true, response := some .stop, record := some (running.newRecord .forced none) } }

/-- PRESTART of a stream, its record open, its queue empty. -/
def prestart : State :=
  { idle with
    seq := { idle.seq with
      state := .prestart, source := .link, segKind := some .stream, prestartTimer := some 15
      scanClock := some 0, zoneCount := 3 }
    power := { idle.power with enable := true }
    zones := { closed := [], openRec := some record43, nextNumber := 44 } }

def quiet (s : State) : State := { s with link := .empty }

/-- A run-out that has stopped, with empty trails. -/
def drained : State :=
  quiet { running with
    seq := { running.seq with
      state := .runout, active := none, next := none, queue := [], source := .none, loader := none
      lastEnd := some .complete }
    travel := { running.travel with mode := .stopping, planSpeed := 0, still := 20 }
    quench := { running.quench with trail := ⟨.empty, .empty⟩ }
    power := running.power.zero.enableOff }

/-- A store with one profile on page 4: three zones and two steps. -/
def axlePage (st : PageState) : Page :=
  { state := st, owner := some 4
    slots := some dwell :: some body :: List.replicate 38 none
    header := some ⟨0, 1, 3, 2⟩
    windows := some ⟨.total, 1150, 1400⟩ :: List.replicate 15 none }

def withPage (st : PageState) (s : State) : State :=
  { s with store := { s.store with pages := s.store.pages.set 4 (axlePage st) } }

/-- The stopped carriage of a travel block. -/
def halted (s : State) : State :=
  { s with travel := { s.travel with mode := .stopping, planSpeed := 0, still := 20 } }

/-! ### WellFormed refuses what cannot come -/

theorem test_wf_accepts : Instr.wf (.step 1#8 ⟨2, 0, 1, 0, 180000, 400, 65535, 12000⟩) = true := by decide
theorem test_wf_tag : Instr.wf (.home 0#8) = false := by decide
theorem test_wf_machine_count : Instr.wf (.configureMachine 1#8 []) = false := by decide
theorem test_wf_quench_count : Instr.wf (.configureQuench 1#8 [1]) = false := by decide
theorem test_wf_measure_count : Instr.wf (.configureMeasure 1#8 [1]) = false := by decide
theorem test_wf_trip_count : Instr.wf (.configureTrip 1#8 [1]) = false := by decide
theorem test_wf_flow_item : Instr.wf (.configureFlow 1#8 [8, 2147483648]) = false := by decide
theorem test_wf_prestart_item : Instr.wf (.configurePrestart 1#8 [-2147483649]) = false := by decide
theorem test_wf_move_position : Instr.wf (.moveTo 1#8 2147483648 100) = false := by decide
theorem test_wf_move_speed : Instr.wf (.moveTo 1#8 0 65536) = false := by decide
theorem test_wf_start_page : Instr.wf (.startProfile 1#8 256 0) = false := by decide
theorem test_wf_stream_length :
    Instr.wf (.startStream 1#8 0 (List.replicate 70 ⟨0, 0, 0⟩)) = false := by decide
theorem test_wf_stream_window : Instr.wf (.startStream 1#8 0 [⟨256, 0, 0⟩]) = false := by decide
theorem test_wf_step_fields :
    [Instr.step 1#8 ⟨256, 0, 0, 0, 0, 0, 0, 0⟩, .step 1#8 ⟨1, 256, 0, 0, 0, 0, 0, 0⟩,
      .step 1#8 ⟨1, 0, 256, 0, 0, 0, 0, 0⟩, .step 1#8 ⟨1, 0, 0, 256, 0, 0, 0, 0⟩,
      .step 1#8 ⟨1, 0, 0, 0, 2147483648, 0, 0, 0⟩, .step 1#8 ⟨1, 0, 0, 0, 0, 65536, 0, 0⟩,
      .step 1#8 ⟨1, 0, 0, 0, 0, 0, 65536, 0⟩,
      .step 1#8 ⟨1, 0, 0, 0, 0, 0, 0, 4294967296⟩].all (!Instr.wf ·) = true := by decide
theorem test_wf_trim : [Instr.trim 1#8 65536 0 0, .trim 1#8 0 65536 0, .trim 1#8 0 0 256].all
    (!Instr.wf ·) = true := by decide
theorem test_wf_profile_open : [Instr.profileOpen 1#8 256 1 1 1 0, .profileOpen 1#8 0 256 1 1 0,
    .profileOpen 1#8 0 1 256 1 0, .profileOpen 1#8 0 1 1 65536 0].all (!Instr.wf ·) = true := by decide
theorem test_wf_profile_data : [Instr.profileData 1#8 256 [], .profileData 1#8 0 [.zone 65536 ⟨0, 0, 0⟩],
    .profileData 1#8 0 [.step 65536 ⟨9, 0, 0, 0, 0, 0, 0, 0⟩]].all (!Instr.wf ·) = true := by decide
theorem test_wf_profile_data_length :
    Instr.wf (.profileData 1#8 0 (List.replicate 54 (.zone 0 ⟨0, 0, 0⟩))) = false := by rfl
theorem test_wf_page_and_number : [Instr.profileClose 1#8 256, .profileErase 1#8 256,
    .recordGet 1#8 65536, .recordRelease 1#8 65536].all (!Instr.wf ·) = true := by decide
theorem test_wf_sample : [Instr.positionSample 2147483648 0 false false false,
    .positionSample 0 1001 false false false, .conversionComplete 65536].all (!Instr.wf ·) = true := by
  decide

/-! ### The spec's worked numbers -/

/-- 10.2: the nine ASCII bytes "123456789" give 0x29B1. -/
theorem test_crc_check_value :
    crc [0x31#8, 0x32#8, 0x33#8, 0x34#8, 0x35#8, 0x36#8, 0x37#8, 0x38#8, 0x39#8] = 0x29B1#16 := by
  decide +kernel

/-- 4.7, one update in a HEAT step: A 992, P_corr 823, code 1,348. -/
theorem test_heat_update :
    correctAcc 980 810 800 = 992 ∧ correction 992 = 15 ∧ heatDemand 12000 650 = 780 ∧
      (stages 780 1040 992 2500 2500 50 810 50).pOut = 823 ∧ setpointCode 823 2500 = 1348 := by decide

/-- 4.7, low speed: 49 lies under the floor of 50 and gives 0 at once, 50 does not. -/
theorem test_floor_speeds :
    heatDemand 12000 41 = 49 ∧ (stages 49 1000 0 2500 2500 50 40 50).pOut = 0 ∧
      heatDemand 12000 42 = 50 ∧ (stages 50 1000 0 2500 2500 50 0 50).pOut = 50 := by decide

/-- 4.7, saturation, and the cap cut from 2,500 under a cap of 2,000. -/
theorem test_saturation_and_cap_cut :
    stage5 3000 2500 2500 = (2500, .saturated) ∧ stage7 2500 2480 50 2500 false = 2500 ∧
      setpointCode 2500 2500 = 4095 ∧ limitCap 80 2500 = 2000 ∧
      stage5 3000 2000 2500 = (2000, .limited) ∧ stage7 2000 2500 50 2000 false = 0 ∧
      stage7 2000 0 50 2000 false = 50 := by decide

/-- 4.7, dwell ramp-up: the first update gives 50 and code 82. -/
theorem test_dwell_first_update :
    (stages 1800 1000 0 2500 2500 50 0 50).pOut = 50 ∧ setpointCode 50 2500 = 82 := by decide

/-- R4: a speed trim of 1,100 gives 880 and 1,100 (1.7). -/
theorem test_trimmed_speeds : trimmedSpeed 800 1100 = 880 ∧ trimmedSpeed 1000 1100 = 1100 := by decide

/-- R49 (4.7): 104 µm over 16 samples is 6.50 mm/s; a reverse run of the same length is -6.50 mm/s. -/
theorem test_measured_speed : measuredSpeed 104 0 = 650 ∧ measuredSpeed 0 104 = -650 := by decide

/-- R98: at 8.00 mm/s and 250 ms the lead is 2,000 µm. -/
theorem test_lead_distance : leadDistance 800 250 = 2000 ∧ leadDistance (-800) 250 = 2000 := by decide

/-- 6.4: an INV_P burst of 40,965 with offset 10 and k 100 gives 818. -/
theorem test_sample_value : sampleValue 40965 4 10 100 = 818 := by decide

/-- 6.5: a sum of 32,920 gives the offset 10, a sum of 41,600 gives 552. -/
theorem test_calibration_offsets : measuredOffset 32920 = 10 ∧ measuredOffset 41600 = 552 := by decide

/-- 6.6, the grants of one millisecond: the promoted calibration goes before the requests promoted beside it. -/
def arbitration : Meas :=
  { State.reset.meas with
    waiting := [⟨.invP, .sample, 0, false⟩, ⟨.pyro, .sample, 0, false⟩,
      ⟨.coilI, .sample, 0, false⟩, ⟨.flow1, .sample, 0, false⟩, ⟨.flow2, .sample, 0, false⟩,
      ⟨.flow3, .sample, 0, false⟩, ⟨.qPress, .sample, 0, false⟩,
      ⟨.flow2, .calibration, 3, false⟩] }

/-- Channel and kind of the first `n` grants, each burst done before the next grant. -/
def grants : Nat → Meas → List (Option (Channel × BurstKind))
  | 0, _ => []
  | n + 1, m =>
    let m' := m.grant MeasureCfg.default true
    (m'.converter.map fun b => (b.channel, b.kind)) :: grants n { m' with converter := none }

theorem test_arbitration_order :
    grants 8 arbitration =
      [some (.coilI, .sample), some (.invP, .sample), some (.pyro, .sample),
        some (.flow2, .calibration), some (.flow3, .sample), some (.qPress, .sample),
        some (.flow1, .sample), some (.flow2, .sample)] := by decide

/-- 8.8: mean densities and joules of the three zones. -/
theorem test_zone_densities :
    ({ ZoneAcc.start with energy := 12558027, length := 59999 } : ZoneAcc).density = some 20930 ∧
      ({ ZoneAcc.start with energy := 64791230, length := 719999 } : ZoneAcc).density = some 8998 ∧
      ({ ZoneAcc.start with energy := 2404811, length := 59996 } : ZoneAcc).density = some 4008 ∧
      ({ ZoneAcc.start with energy := 12558027 } : ZoneAcc).joules = 1255802 := by decide

/-- R192, R198: a STATE notice of cause RESET as a frame body: kind, tag 0, state UNREFERENCED. -/
theorem test_reset_notice : State.reset.link.sending = some (.notice (.state .unreferenced .reset none)) := by
  decide

/-- 2.5: a stream whose queue reaches the high mark of 24 is HELD with STOP, one below is not. -/
def stream (n : Nat) : State :=
  { prestart with
    seq := { prestart.seq with
      queue := List.replicate n ⟨spline, .link, 0⟩, linkCount := n, spinTaken := true } }

theorem test_flow_high_mark :
    after (.step 1#8 ⟨2, 2, 0, 0, 960000, 1000, 65535, 4000⟩) (stream 23) (·.seq.flow) = some .held ∧
      after (.step 1#8 ⟨2, 2, 0, 0, 960000, 1000, 65535, 4000⟩) (stream 22) (·.seq.flow) =
        some .flowing := by decide

/-- 1.8: END in a splice segment is INVALID and uses no index; MARK 9 is accepted. -/
def splice : State := { stream 0 with seq := { (stream 0).seq with segKind := some .splice, linkCount := 2 } }

theorem test_splice_segment :
    after (.step 1#8 ⟨9, 0, 0, 0, 0, 0, 0, 0⟩) splice (fun t => (t.seq.linkCount, t.seq.queue.length)) =
        some (2, 0) ∧
      after (.step 1#8 ⟨6, 0, 0, 9, 0, 0, 0, 0⟩) splice (fun t => (t.seq.linkCount, t.seq.queue)) =
        some (3, [⟨.mark 9, .link, 2⟩]) := by decide

/-! ### Every statement's hypotheses can be met -/

/-- `running` with a power update waiting and the axle profile in use on page 4. -/
def busy : State :=
  let s := withPage .written running
  { s with pending := [.powerUpdate], store := { s.store with inUse := some 4 } }

theorem meets_StepTakesFrontCommand : idle.pending = [] := by decide

theorem meets_EveryCommandCompletes : ∃ t, exec (.home 1#8) idle = .next t ∧
    Instr.configures (.home 1#8) = false ∧ Instr.isInput (.home 1#8) = false ∧
    Instr.writesPages (.home 1#8) = false ∧ Instr.movesPosition (.home 1#8) = false :=
  ⟨_, rfl, by decide⟩

theorem busy_trails : TrailInv busy := by intro r; cases r <;> decide

/-- A running scan meets every invariant a step keeps, and has a step. -/
theorem meets_invariants :
    LinkInv busy ∧ TrailInv busy ∧ PowerInv busy ∧ QueueInv busy ∧ LatchInv busy ∧ RecordInv busy ∧
      ReferenceInv busy ∧ MeasInv busy ∧ busy.zones.numbers.Nodup ∧ ∃ t, step busy = .next t := by
  refine ⟨⟨by decide, ?_, by decide⟩, busy_trails, ?_, ?_, ?_, ?_, ?_, ⟨by decide, by decide, ?_⟩,
    by decide, _, rfl⟩
  · intro k; cases k <;> decide
  · unfold PowerInv; decide
  · unfold QueueInv; decide
  · unfold LatchInv; decide
  · unfold RecordInv; decide
  · unfold ReferenceInv; decide
  · intro c h; cases h

theorem busy_pass : PassInv busy := by
  unfold PassInv Quench.ringsQuiet Quench.endsOff
  refine ⟨?_, by decide, by decide, ?_, by decide, by decide, by decide, by decide, by decide⟩
  · intro d h r
    cases h
    cases r <;> decide
  · intro a h
    cases h
    decide

/-- The premises of the pass invariant hold together of that scan, which has one entry in the trail of Q2. -/
theorem meets_TrailsMonotoneInPass :
    (QueueInv busy ∧ LatchInv busy ∧ TrailInv busy ∧ PassInv busy ∧ ∃ t, step busy = .next t) ∧
      (busy.quench.trail.get .q2).entries = [⟨580000, true⟩] := by
  refine ⟨⟨?_, ?_, busy_trails, busy_pass, _, rfl⟩, by decide⟩
  · unfold QueueInv; decide
  · unfold LatchInv; decide

/-- So does a part in TRIPPING, entered from that scan. -/
theorem meets_invariants_tripping :
    QueueInv tripping ∧ LatchInv tripping ∧ RecordInv tripping ∧ ReferenceInv tripping := by
  unfold QueueInv LatchInv RecordInv ReferenceInv
  decide

theorem open_store : StoreInv (withPage .opened idle).store := by
  refine ⟨?_, ?_, ?_, ?_, ?_, ?_, ?_, ?_, ?_⟩ <;> decide +kernel

theorem written_store : StoreInv (withPage .written idle).store := by
  refine ⟨?_, ?_, ?_, ?_, ?_, ?_, ?_, ?_, ?_⟩ <;> decide +kernel

/-- A store with an OPEN profile, and one with a WRITTEN one, meet the shape of the pages, and there is a step from them. -/
theorem meets_StorePagesKeepShape : StoreInv (withPage .opened idle).store ∧
    StoreInv (withPage .written idle).store ∧
    (∃ t, step { withPage .opened idle with pending := [.profileClose 1#8 4] } = .next t) :=
  ⟨open_store, written_store, _, rfl⟩

theorem meets_ZoneTotalsNeverDecrease : ∃ t r', RecordInv busy ∧ step busy = .next t ∧
    busy.zones.openRec = some record43 ∧ t.zones.openRec = some r' ∧ r'.number = record43.number := by
  refine ⟨_, _, ?_, rfl, rfl, rfl, rfl⟩
  unfold RecordInv
  decide

theorem meets_RequestsDecodeEncode :
    Request.wf (.step ⟨2, 1, 6, 0, 900000, 800, 65535, 9000⟩) = true ∧
      Request.wf (.configureFlow [8, 24]) = true ∧
      Request.wf (.profileData 4 [.zone 0 ⟨2, 1150, 1400⟩]) = true := by decide

theorem meets_FramesAreReceived :
    (List.replicate 638 (0#8 : Byte)).length ≤ 638 ∧ idle.link.rxBytes = [] :=
  ⟨List.length_replicate.le, rfl⟩

/-- IDLE with these bytes in the receiver. -/
def rx (bytes : List Byte) : State := { idle with link := { Link.empty with rxBytes := bytes } }

/-- A frame of kind 0x01 and tag 1 with a wrong check. -/
def damaged : List Byte := [0xA5#8, 0#8, 2#8, 1#8, 1#8, 0#8, 0#8]

theorem meets_ReceiverSearches :
    (rx []).link.rxBytes = [] ∧ (0xA4#8 : Byte) ≠ 0xA5#8 ∧
      u16 0#8 2#8 = 2 ∧ (rx [0xA5#8, 0#8]).link.rxBytes = [0xA5#8, 0#8] ∧ u16 2#8 0x80#8 = 640 ∧
      (rx damaged).link.rxBytes = 0xA5#8 :: damaged.tail ∧
      holdsFrame (rx damaged).link.rxBytes = true ∧
      checkedRequest (rx damaged).link.rxBytes = none ∧
      holdsFrame (rx [0xA5#8, 0#8]).link.rxBytes = false ∧
      holdsFrame (frameBytes 0x01#8 1#8 []) = true := by decide +kernel

/-- IDLE with `n` requests, `m` BUSY answers and four replies waiting. -/
def full (n m : Nat) : State :=
  { idle with
    link := { Link.empty with
      rxBuffer := List.replicate n ⟨0x04#8, 9#8, []⟩, busy := List.replicate m ⟨0x04#8, 9#8⟩
      out := List.replicate 4 (.reply ⟨0x81#8, 8#8, .ok, []⟩)
      sending := some (.reply ⟨0x81#8, 8#8, .ok, []⟩) } }

theorem meets_RequestsWaitTheirTurn :
    Instr.request (.home 1#8) = some (1#8, .home) ∧ (1#8 : Byte) ≠ 0#8 ∧
      Instr.request (.home 0#8) = some (0#8, .home) ∧
      ((full 0 0).takesAtOnce = false ∧ (full 0 0).link.rxBuffer.length < 4) ∧
      ((full 3 0).takesAtOnce = false ∧ (full 3 0).link.rxBuffer.length < 4) ∧
      ((full 4 3).link.rxBuffer.length = 4 ∧ (full 4 3).link.busy.length < 4 ∧
        (full 4 3).link.sending.isSome = true) ∧
      (full 4 4).link.rxBuffer.length = 4 ∧ (full 4 4).link.busy.length = 4 := by decide

/-- IDLE with one request waiting. -/
def waits (r : RawRequest) : State := { idle with link := { Link.empty with rxBuffer := [r] } }

theorem meets_DispatchServesOldest :
    (Instr.request (.home 1#8) = some (1#8, .home) ∧ Request.wf .home = true ∧
      (waits ⟨Request.kindByte .home, 1#8, Request.payload .home⟩).link.rxBuffer =
        [⟨Request.kindByte .home, 1#8, Request.payload .home⟩] ∧
      (waits ⟨0x04#8, 1#8, []⟩).link.replies < 4) ∧
      ([0x00#8, 0x0E#8, 0x0F#8, 0x15#8, 0x17#8, 0x1A#8, 0xFF#8] : List Byte).all (fun k =>
        k.toNat = 0 ∨ (0x0E ≤ k.toNat ∧ k.toNat ≤ 0x0F) ∨ (0x15 ≤ k.toNat ∧ k.toNat ≤ 0x17) ∨
          0x1A ≤ k.toNat) = true ∧
      idle.link.rxBuffer = [] ∧ 4 ≤ (full 1 0).link.replies := by decide

/-- Three HOME requests wait: the first is served, the others stay in their order. -/
theorem meets_DispatchServesOldest_behind :
    let s : State := { idle with link := { Link.empty with
      rxBuffer := [⟨0x04#8, 1#8, []⟩, ⟨0x04#8, 2#8, []⟩, ⟨0x01#8, 3#8, []⟩] } }
    Request.kindByte .home = 0x04#8 ∧ s.link.replies < 4 ∧
      after .dispatch s (fun t => (t.seq.state, t.link.rxBuffer)) =
        some (.homing, [⟨0x04#8, 2#8, []⟩, ⟨0x01#8, 3#8, []⟩]) := by decide

/-- Payloads one byte off the length R190 gives, and three at it: CONFIGURE of FLOW, START-STREAM of one zone, PROFILE-DATA of one zone
record and of none. -/
theorem meets_DispatchServesOldest_lengths :
    let bad : Byte → List Byte → Bool := fun k p =>
      after .dispatch (waits ⟨k, 1#8, p⟩) (fun t => t.link.sending) ==
        some (some (.reply ⟨replyKind k, 1#8, .badLength, []⟩))
    let zone : List Byte := 1#8 :: List.replicate 11 0#8
    ([(0x01, 1), (0x05, 5), (0x05, 7), (0x07, 8), (0x09, 17), (0x0A, 4), (0x0B, 0), (0x0B, 2),
        (0x10, 12), (0x12, 0), (0x13, 2), (0x18, 1), (0x19, 3)] : List (Nat × Nat)).all (fun x =>
          bad (byteOf x.1) (List.replicate x.2 0#8)) = true ∧
      bad 0x02#8 [] = true ∧ bad 0x02#8 (7#8 :: List.replicate 4 0#8) = true ∧
      bad 0x02#8 (5#8 :: List.replicate 7 0#8) = true ∧
      bad 0x02#8 (5#8 :: List.replicate 8 0#8) = false ∧
      bad 0x08#8 (List.replicate 8 0#8 ++ 1#8 :: List.replicate 8 0#8) = true ∧
      bad 0x08#8 (List.replicate 8 0#8 ++ 1#8 :: List.replicate 9 0#8) = false ∧
      bad 0x11#8 [0#8] = true ∧ bad 0x11#8 (0#8 :: 1#8 :: zone.dropLast) = true ∧
      bad 0x11#8 (0#8 :: 1#8 :: zone ++ [0#8]) = true ∧ bad 0x11#8 (0#8 :: 1#8 :: zone) = false ∧
      bad 0x11#8 [0#8, 0#8] = false ∧ recordsFit 1 (3#8 :: List.replicate 11 0#8) = false := by
  decide +kernel

theorem meets_TransmitterOrder :
    idle.link.sending = none ∧ (full 4 3).link.sending.isSome = true ∧
      (full 4 3).link.busy = ⟨0x04#8, 9#8⟩ :: List.replicate 2 ⟨0x04#8, 9#8⟩ ∧
      (full 0 0).link.busy = [] ∧
      (full 0 0).link.out = .reply ⟨0x81#8, 8#8, .ok, []⟩ ::
        List.replicate 3 (.reply ⟨0x81#8, 8#8, .ok, []⟩) ∧
      State.reset.link.sending.isSome = true ∧ State.reset.link.busy = [] ∧
      State.reset.link.out = [] := by decide

/-- A request of tag 1 is taken at once where no request waits and no reply does. -/
theorem taken (s : State) (h : s.takesAtOnce = true) : Taken s 1#8 := ⟨by decide, h⟩

theorem meets_StatusReplies : Taken idle 1#8 ∧ Taken running 1#8 :=
  ⟨taken _ (by decide), taken _ (by decide)⟩

def machineLow : List Int := [10, 1, 100, -100000, -99999, 100, 10000, -100000, 100, 100, 100, 0, 1]
def machineHigh : List Int :=
  [2000, 500, 20000, 2499999, 2500000, 30000, 2600000, 2500000, 30000, 30000, 6000, 200, 6000]

/-- Both ends of every range of CONFIGURE MACHINE are accepted; equal limits are not (R66, R90). -/
theorem meets_ConfigurePlainGroups_machine :
    Taken idle 1#8 ∧ idle.seq.state.isRest = true ∧
      after (.configureMachine 1#8 machineLow) idle (·.cfg.machine.softHigh) = some (-99999) ∧
      after (.configureMachine 1#8 machineHigh) idle (·.cfg.machine.floorShare) = some 200 ∧
      after (.configureMachine 1#8 (machineLow.set 4 (-100000))) idle (·.cfg.machine) =
        some MachineCfg.default :=
  ⟨taken _ (by decide), by decide⟩

/-- The same for QUENCH, FLOW and PRESTART (R26, R39, R111). -/
theorem meets_ConfigurePlainGroups_others :
    after (.configureQuench 1#8 [0, 0, 0, 0, 0, 0, 0, 50, 10, 5, 1, 0, 0]) cold
        (·.cfg.quench.pumpIdle) = some 0 ∧
      after (.configureQuench 1#8 [300000, 300000, 500, 500, 5000, 5000, 5000, 2000, 1000, 600, 2000,
        1999, 3600]) cold (·.cfg.quench.pumpIdle) = some 3600 ∧
      after (.configureQuench 1#8 [0, 0, 0, 0, 0, 0, 0, 50, 10, 5, 1, 1, 0]) cold
        (·.cfg.quench) = some QuenchCfg.default ∧
      after (.configureFlow 1#8 [30, 31]) idle (·.cfg.flow) = some ⟨30, 31⟩ ∧
      after (.configureFlow 1#8 [2, 2]) idle (·.cfg.flow) = some ⟨8, 24⟩ ∧
      after (.configurePrestart 1#8 [60]) idle (·.cfg.prestart) = some 60 ∧
      after (.configurePrestart 1#8 [61]) idle (·.cfg.prestart) = some 15 := by decide

/-- A MEASURE group of these periods, burst lengths, scales, modes and substitutes on all nine channels, and its last four items. -/
def measureItems (period burst scale mode sub : Int) (rest : List Int) : List Int :=
  List.replicate 9 period ++ List.replicate 9 burst ++ List.replicate 9 scale ++
    List.replicate 9 mode ++ List.replicate 9 sub ++ rest

def measureLow : List Int := measureItems 1 1 1 1 (-32768) [1, 1, 100, 1]
def measureHigh : List Int := measureItems 1000 16 100000 3 32767 [254, 15, 5000, 2]

/-- Both ends of every range of CONFIGURE MEASURE are accepted and stand in their places; SUBSTITUTE is refused to COIL_I and INV_P
alone, a burst of 3 and an item beyond its range to all (R121, R128). -/
theorem meets_ConfigurePlainGroups_measure :
    Taken idle 1#8 ∧ measureLow.length = 49 ∧ measureHigh.length = 49 ∧
      after (.configureMeasure 1#8 measureHigh) idle (fun t =>
        (t.cfg.measure.stale, t.cfg.measure.relax, t.cfg.measure.calPeriod, t.cfg.measure.calMode,
          (t.cfg.measure.chan.get .coilWater).mode, t.meas.chan.coilWater.timer)) =
        some (254, 15, 5000, .all, .fault, 1000) ∧
      after (.configureMeasure 1#8 measureLow) idle (fun t =>
        (t.cfg.measure.chan.get .coilI).substitute) = some (-32768) ∧
      after (.configureMeasure 1#8 (measureLow.set 29 2)) idle (fun t =>
        (t.cfg.measure.chan.get .pyro).mode) = some .substitute ∧
      [measureLow.set 27 2, measureLow.set 28 2, measureLow.set 9 3, measureLow.set 8 0,
        measureHigh.set 26 100001, measureLow.set 36 (-32769), measureHigh.set 45 255,
        measureHigh.set 46 16, measureLow.set 47 99, measureHigh.set 48 3].all (fun xs =>
          after (.configureMeasure 1#8 xs) idle (·.cfg.measure) == some MeasureCfg.default) = true :=
  ⟨taken _ (by decide), by decide +kernel⟩

/-- The defaults of R150 but PYRO_HIGH in class TRIP. -/
def tripItems : List Int :=
  [2, 3, 3, 3, 3, 1, 3, 3, 1, 3, 3, 3, 3, 3, 2, 1, 1, 3, 3, 80, 70, 4000, 1050, 150, 40]

def tripGroup : TripCfg := { TripCfg.default with classPyro := .trip }

/-- IDLE with PYRO_HIGH present. -/
def hot : State := { idle with power := { idle.power with pyroHigh := true } }

theorem meets_ConfigureTripOrRefused : Taken idle 1#8 ∧ Taken hot 1#8 ∧
    idle.seq.state.isRest = true ∧ tripCfgOf tripItems = some tripGroup ∧
    (∀ src, ¬(idle.present src = true ∧ tripGroup.classOf src = .trip ∧
      idle.cfg.trip.classOf src ≠ .trip)) ∧
    hot.trip.latch = false ∧ (hot.present .pyroHigh = true ∧ tripGroup.classOf .pyroHigh = .trip ∧
      hot.cfg.trip.classOf .pyroHigh ≠ .trip) ∧
    Instr.request (.configureFlow 1#8 [8, 24]) = some (1#8, .configureFlow [8, 24]) ∧
    Request.kindByte (.configureFlow [8, 24]) = 0x02#8 ∧
    Request.wf (.configureFlow [8, 24]) = true ∧ Taken running 1#8 ∧
    running.seq.state.isRest = false :=
  ⟨taken _ (by decide), taken _ (by decide), by decide, by decide,
    fun src => by cases src <;> decide, by decide, by decide, by decide, by decide, by decide,
    taken _ (by decide), by decide⟩

/-- Both ends of the ranges of CONFIGURE TRIP are accepted, a class its source does not admit and a value beyond a range are not
(R131, R150). -/
theorem meets_ConfigureTripOrRefused_ranges :
    tripItems.length = 25 ∧
      after (.configureTrip 1#8 ([3, 1] ++ [1, 3, 1, 3, 1] ++ List.replicate 12 2 ++
        [10, 10, 10, 100, 0, 5])) idle (fun t => (t.cfg.trip.classCoilOver, t.cfg.trip.classFlow.q2,
          t.cfg.trip.respForced, t.cfg.trip.capPyro, t.cfg.trip.waterMin, t.cfg.trip.qTempLimit)) =
        some (.trip, .trip, .stop, 10, 0, 5) ∧
      after (.configureTrip 1#8 ([2, 3] ++ List.replicate 5 1 ++ List.replicate 12 3 ++
        [100, 100, 6000, 1500, 5000, 120])) idle (fun t => (t.cfg.trip.iMax, t.cfg.trip.tMax)) =
        some (6000, 1500) ∧
      [tripItems.set 0 1, tripItems.set 1 4, tripItems.set 2 2, tripItems.set 6 2, tripItems.set 7 0,
        tripItems.set 18 4, tripItems.set 19 9, tripItems.set 20 101, tripItems.set 21 6001,
        tripItems.set 22 99, tripItems.set 23 (-1), tripItems.set 24 121].all (fun xs =>
          after (.configureTrip 1#8 xs) idle (·.cfg.trip) == some TripCfg.default) = true := by
  decide +kernel

theorem meets_HomeAndMoveToBegin : Taken idle 1#8 ∧ Taken cold 1#8 ∧ Taken running 1#8 ∧
    idle.seq.state = .idle ∧ cold.seq.state = .unreferenced ∧ running.seq.state = .running ∧
    (100 ≤ 30000 ∧ 30000 ≤ 30000 ∧ idle.cfg.machine.softLow ≤ 2300000 ∧
      (2300000 : Int) ≤ idle.cfg.machine.softHigh) ∧
    ¬(100 ≤ 99 ∧ 99 ≤ 30000 ∧ idle.cfg.machine.softLow ≤ 0 ∧ 0 ≤ idle.cfg.machine.softHigh) :=
  ⟨taken _ (by decide), taken _ (by decide), taken _ (by decide), by decide⟩

theorem meets_PrestartExits : QueueInv prestart ∧ prestart.seq.state = .prestart ∧
    prestart.zones.openRec.isSome = true ∧ prestart.seq.prestartTimer.isSome = true ∧
    Taken prestart 1#8 ∧ QueueInv idle ∧ idle.seq.state ≠ .prestart := by
  refine ⟨?_, by decide, by decide, by decide, taken _ (by decide), ?_, by decide⟩ <;>
    (unfold QueueInv; decide)

/-- `running` while a turn returns to its start. -/
def returning : State :=
  quiet { running with
    seq := { running.seq with active := none, turnPhase := .return }
    travel := { running.travel with mode := .target } }

theorem quiet_trails : TrailInv (quiet running) := by intro r; cases r <;> decide

theorem meets_StopByState : Taken (quiet running) 1#8 ∧ (quiet running).seq.state = .running ∧
    TrailInv (quiet running) ∧ (quiet running).quench.trail.q1.entries.length < 16 ∧
    (quiet running).quench.trail.q2.entries.length < 16 ∧
    after (.stop 1#8) (quiet running) (·.seq.state) = some .runout ∧
    after (.stop 1#8) returning (·.seq.state) = some .runout ∧ running.travel.mode ≠ .disabled ∧
    Taken (at_ .homing idle) 1#8 ∧ (at_ .homing idle).travel.mode ≠ .disabled ∧
    idle.seq.state ∈ [.unreferenced, .idle, .runout, .tripping, .tripped] :=
  ⟨taken _ (by decide), by decide, quiet_trails, by decide, by decide, by decide, by decide,
    by decide, taken _ (by decide), by decide, by decide⟩

/-- A trail of Q1 with 16 entries, the last ON. -/
def fullTrail : PerRing Trail :=
  ⟨⟨(List.range 16).map fun (i : Nat) => ⟨(800000 + i : Int), i % 2 == 1⟩, false⟩, .empty⟩

/-- RUNNING past the last entry of a full trail, FORCED with RUNOUT: STOP finds no place for the OFF entry, and FORCE-TRIP none for
its own (R96). -/
def stuck : State :=
  quiet { running with
    travel := { running.travel with position := 850000 }
    quench := { running.quench with trail := fullTrail }
    cfg := { running.cfg with trip := { running.cfg.trip with respForced := .runout } } }

theorem meets_StopByState_full : Taken stuck 1#8 ∧ stuck.seq.state = .running ∧
    stuck.trip.latch = false ∧ stuck.seq.passDir = some .forward ∧ stuck.quench.trailFull = false ∧
    (stuck.quench.trail.get .q1).entries.length = 16 ∧
    (stuck.quench.trail.get .q1).entries.getLast? = some ⟨800015, true⟩ ∧
    Dir.forward.beyond stuck.travel.position 800015 = true ∧ stuck.cfg.trip.respForced = .runout ∧
    after (.stop 1#8) stuck (fun t => (t.trip.record.map fun r => (r.cause, r.state, r.later),
      t.trip.response)) = some (some (.trailFull, .runout, []), some .stopFlood) ∧
    after (.forceTrip 1#8) stuck (fun t => (t.trip.record.map fun r => (r.cause, r.state, r.later),
      t.trip.response)) = some (some (.forced, .running, [.trailFull]), some .stopFlood) :=
  ⟨taken _ (by decide), by decide, by decide, by decide, by decide, by decide, by decide, by decide,
    by decide, by decide, by decide⟩

theorem meets_StartsTakeEffect : Taken (withPage .written idle) 1#8 ∧
    (withPage .written idle).seq.state = .idle ∧ (withPage .written idle).zones.count < 8 ∧
    ((withPage .written idle).store.page 4).state = .written ∧
    ((withPage .written idle).store.page 4).owner = some 4 ∧
    ([⟨2, 1150, 1400⟩] : List WindowRecord).mapM Window.ofRecord = some [⟨.total, 1150, 1400⟩] :=
  ⟨taken _ (by decide), by decide⟩

/-- IDLE with a full record list. -/
def eight : State :=
  { withPage .written idle with
    zones := { idle.zones with
      closed := List.replicate 8 (record43.close .complete 0 none) } }

theorem meets_StartsAndStepsRefusedInOrder :
    Taken eight 1#8 ∧ eight.seq.state = .idle ∧ 8 ≤ eight.zones.count ∧
      (4 < 16 ∧ (eight.store.page 4).state = .written ∧ (eight.store.page 4).owner = some 4) ∧
      ¬((idle.store.page 4).state = .written) ∧ Window.ofRecord ⟨2, 1150, 1400⟩ ≠ none ∧
      Window.ofRecord ⟨3, 0, 0⟩ = none ∧ idle.seq.source ≠ .link ∧
      ((stream 32).seq.source = .link ∧ 32 ≤ (stream 32).seq.queue.length) ∧
      ((stream 31).seq.queue.length < 32 ∧ ScanStep.ofRecord ⟨0, 0, 0, 0, 0, 0, 0, 0⟩ = none ∧
        ScanStep.ofRecord ⟨7, 0, 0, 8, 0, 0, 0, 0⟩ = some (.splice 8) ∧
        ScanStep.ofRecord ⟨8, 0, 0, 0, 0, 0, 0, 0⟩ = some .resume ∧
        ScanStep.ofRecord ⟨9, 0, 0, 0, 0, 0, 0, 0⟩ = some .finish ∧
        (stream 31).seq.segKind ≠ some .splice ∧ splice.seq.segKind ≠ some .stream) :=
  ⟨taken _ (by decide), by decide⟩

/-- Both ends of the HEAT ranges, one value beyond each, for the speed (R5, R7). -/
theorem meets_StepRecordRanges :
    (ScanStep.ofRecord ⟨2, 15, 8, 0, 2500000, 15000, 600, 100000⟩).isSome = true ∧
      (ScanStep.ofRecord ⟨2, 0, 0, 0, -100000, 10, 65535, 100⟩).isSome = true ∧
      (ScanStep.ofRecord ⟨2, 0, 0, 0, 0, 9, 65535, 100⟩).isSome = false ∧
      (ScanStep.ofRecord ⟨2, 0, 0, 0, 0, 15001, 65535, 100⟩).isSome = false ∧
      (ScanStep.ofRecord ⟨2, 0, 9, 0, 0, 10, 65535, 100⟩).isSome = false ∧
      (ScanStep.ofRecord ⟨3, 0, 0, 0, 0, 6000, 601, 6000⟩).isSome = false := by decide

theorem meets_StepJoinsQueue : Taken (stream 31) 1#8 ∧ (stream 31).seq.source = .link ∧
    (stream 31).seq.queue.length < 32 ∧
    ScanStep.ofRecord ⟨2, 2, 0, 0, 960000, 1000, 65535, 4000⟩ = some spline ∧
    (stream 31).seq.segClosed = false ∧ (∀ n, spline ≠ .splice n) ∧ spline ≠ .resume ∧
    spline ≠ .finish ∧ (stream 31).vacant = false ∧
    (∀ q rest, firstNonMark ((stream 31).seq.queue ++ [⟨spline, .link, 31⟩]) = some (q, rest) →
      q.step.isSource = false) := by
  refine ⟨taken _ (by decide), by decide, by decide, by decide, by decide, nofun, nofun, nofun,
    by decide, ?_⟩
  intro q rest h
  cases h
  rfl

theorem meets_TrimWritesShadow : Taken (quiet running) 1#8 ∧
    ((quiet running).seq.active = some bodyActive ∧ bodyActive.step = .heat 900000 800 9000 1 .keep .on none ∧
      (quiet running).travel.mode = .scan) ∧ Taken idle 1#8 ∧
    (∀ a, idle.seq.active = some a → ∀ p v e z x y f, a.step ≠ .heat p v e z x y f) :=
  ⟨taken _ (by decide), by decide, taken _ (by decide), nofun⟩

theorem meets_InhibitOrders : Taken idle 1#8 ∧ idle.power.inhibit = false ∧
    after (.inhibitOn 1#8) (quiet running) (fun t => (t.power.inhibit, t.power.pOut, t.power.enable)) =
      some (true, 0, true) ∧
    after (.inhibitOff 1#8) (quiet running) (·.power.inhibit) = some false :=
  ⟨taken _ (by decide), by decide⟩

/-- The states of the latching events: a lost inverter, a coil water timer, a low spindle, a circuit in proving, one in dropout. -/
def coilWater : State := { idle with trip := { idle.trip with coilWaterTimer := true } }
def slow : State := { idle with travel := { idle.travel with lowCount := 100 } }
def watching (w : Watch) (p d : Option Nat) : State :=
  { idle with quench := { idle.quench with
      circuit := { idle.quench.circuit with q1 := ⟨true, w, p, d⟩ } } }

theorem meets_TripSourcesLatch : Taken (quiet running) 1#8 ∧ running.trip.latch = false ∧
    running.inputs.fault = false ∧
    (running.power.enable = true ∧ running.power.readySeen = true ∧ running.inputs.ready = true) ∧
    (coilWater.trip.latch = false ∧ coilWater.trip.coilWaterTimer = true ∧
      coilWater.trip.coilWaterLow = false) ∧
    (slow.trip.latch = false ∧ slow.travel.lowCount = 100 ∧ slow.travel.spindleLow = false) ∧
    idle.cfg.trip.classFlow.get .q1 = .trip ∧
    ((watching .proving (some 400) none).quench.circuit.get .q1).watch = .proving ∧
    ((watching .proving (some 400) none).quench.circuit.get .q1).proving.isSome = true ∧
    ((watching .proved none (some 100)).quench.circuit.get .q1).watch = .proved ∧
    ((watching .proved none (some 100)).quench.circuit.get .q1).dropout.isSome = true ∧
    running.inputs.estop = false ∧ running.travel.encoderFault = false :=
  ⟨taken _ (by decide), by decide⟩

/-- A sample that carries a forward carriage past the soft limit, one on an outer switch, one that strays from its plan by more than
the following error limit of 2,000 (R54, R59, R60, R66). -/
def beyond (plan : Int) : State :=
  { idle with travel := { idle.travel with
      position := 2300000, plan := plan, planSpeed := 10, history := List.replicate 16 2300000 } }

theorem meets_TripSourcesLatch_samples :
    (beyond 2300000000).trip.latch = false ∧ idle.cfg.machine.softHigh = 2300000 ∧
      idle.cfg.machine.feLimit = 2000 ∧
      after (.positionSample 0 0 false false false) (beyond 2300000000) (·.trip.latch) = some false ∧
      after (.positionSample 1 0 false false false) (beyond 2300000000) (fun t =>
        t.trip.record.map (·.cause)) = some (some .overtravel) ∧
      after (.positionSample 0 0 false false true) (beyond 2300000000) (fun t =>
        t.trip.record.map (·.cause)) = some (some .overtravel) ∧
      after (.positionSample 0 0 false true false) (beyond 2300000000) (·.trip.latch) = some false ∧
      after (.positionSample 0 0 false false false) (beyond 2298000000) (·.trip.latch) = some false ∧
      after (.positionSample 0 0 false false false) (beyond 2297999000) (fun t =>
        t.trip.record.map (·.cause)) = some (some .followingError) := by decide

/-- Where FORCE-TRIP leads with FORCED configured to the response. -/
def forced (r : Response) (s : State) : Option (SeqState × TravelMode × Bool × Q3Owner) :=
  after (.forceTrip 1#8)
    { s with cfg := { s.cfg with trip := { s.cfg.trip with respForced := r } } }
    fun t => (t.seq.state, t.travel.mode, t.quench.trailsEmpty, t.quench.q3Owner)

/-- FORCED with each response in the body section, whose Q2 entry still waits, in RUNOUT, and in IDLE (R137, R140 to R143, R145). -/
theorem meets_TripSourcesLatch_responses : TrailInv (quiet running) ∧ HasTrailRoom (quiet running) ∧
    forced .runout (quiet running) = some (.tripping, .drain, false, .none) ∧
    forced .stop (quiet running) = some (.tripping, .stopping, true, .none) ∧
    forced .stopFlood (quiet running) = some (.tripping, .stopping, true, .flood) ∧
    forced .halt (quiet running) = some (.tripped, .disabled, true, .none) ∧
    forced .runout drained = some (.tripping, .stopping, true, .flood) ∧
    forced .stop drained = some (.tripped, .stopping, true, .none) ∧
    forced .runout idle = some (.tripped, .hold, true, .none) ∧
    forced .stopFlood idle = some (.tripped, .hold, true, .flood) :=
  ⟨quiet_trails, ⟨by decide, by decide⟩, by decide, by decide, by decide, by decide, by decide,
    by decide, by decide, by decide⟩

/-- TRIPPED with the record of a forced trip; `tripping` answers nothing yet. -/
def tripped : State :=
  quiet { tripping with
    seq := { tripping.seq with state := .tripped }
    zones := { tripping.zones with openRec := none } }

def runoutTrip : State := quiet { tripping with trip := { tripping.trip with response := some .runout } }

theorem meets_FurtherTripsAndClearing : Taken tripped 1#8 ∧ tripped.trip.latch = true ∧
    tripped.trip.record = some (running.newRecord .forced none) ∧
    tripped.cfg.trip.responseOf .forced ≠ .halt ∧ tripped.seq.state = .tripped ∧
    (Taken (quiet tripping) 1#8 ∧ tripping.seq.state = .tripping ∧
      tripping.trip.response ≠ some .runout) ∧
    (Taken runoutTrip 1#8 ∧ runoutTrip.seq.state = .tripping ∧
      runoutTrip.trip.response = some .runout) ∧
    idle.seq.state ≠ .tripped ∧
    (∀ src, ¬(tripped.present src = true ∧ tripped.cfg.trip.classOf src = .trip)) :=
  ⟨taken _ (by decide), by decide, by decide, by decide, by decide,
    ⟨taken _ (by decide), by decide⟩, ⟨taken _ (by decide), by decide⟩, by decide,
    fun src => by cases src <;> decide⟩

/-- Further trips in TRIPPING under STOP and RUNOUT and in TRIPPED: the causes recorded, and the state and the response after them. -/
def further (c : Instr) (s : State) : Option (List Source × SeqState × Option Response) :=
  after c s fun t =>
    ((t.trip.record.map (·.later)).getD [], t.seq.state, t.trip.response)

theorem meets_FurtherTripsAndClearing_sources :
    (runoutTrip.inputs.estop = false ∧ runoutTrip.travel.encoderFault = false ∧
      runoutTrip.inputs.fault = false ∧ runoutTrip.power.coilOver = false) ∧
    runoutTrip.cfg.trip.responseOf .estop = .halt ∧
    further (.emergencyStopInput true) tripped = some ([.estop], .tripped, some .stop) ∧
    further (.emergencyStopInput true) runoutTrip = some ([.estop], .tripped, some .halt) ∧
    further (.encoderFaultInput true) (quiet tripping) = some ([.encoderFault], .tripped, some .halt) ∧
    further (.faultInputChange true) (quiet tripping) = some ([.inverterFault], .tripping, some .stop) ∧
    further .coilWaterTimerExpiry { runoutTrip with trip := { runoutTrip.trip with
      coilWaterTimer := true } } = some ([.coilWaterLow], .tripping, some .stopFlood) ∧
    further .lowCountReached { runoutTrip with travel := { runoutTrip.travel with lowCount := 100 } } =
      some ([.spindleLow], .tripping, some .stopFlood) ∧
    further (.dropoutTimerExpiry .q1) { runoutTrip with quench := { runoutTrip.quench with
      circuit := ⟨⟨true, .proved, none, some 4⟩, .closed, .closed⟩ } } =
      some ([.quenchFlowLow1], .tripping, some .stopFlood) :=
  ⟨by decide, by decide, by decide, by decide, by decide, by decide, by decide, by decide, by decide⟩

/-- A sample in TRIPPING that finds the carriage 3 mm behind its plan, and one in TRIPPED on an outer switch while it moves. -/
theorem meets_FurtherTripsAndClearing_samples :
    (runoutTrip.seq.active = none ∧ runoutTrip.inputs.encoder = false ∧
      runoutTrip.cfg.machine.feLimit = 2000) ∧
    further (.positionSample 0 120 false false false) { runoutTrip with travel := { runoutTrip.travel with
      plan := 603000000 } } = some ([.followingError], .tripping, some .stopFlood) ∧
    further (.positionSample 0 120 false false false) runoutTrip = some ([], .tripping, some .runout) ∧
    further (.positionSample 0 120 false false true) tripped = some ([.overtravel], .tripped, some .stop) := by
  decide

/-- TRIPPED with the emergency stop still active: CLEAR-TRIP is refused. -/
theorem meets_clearing_refused :
    let s := { tripped with inputs := { tripped.inputs with estop := true } }
    Taken s 1#8 ∧ s.seq.state = .tripped ∧ s.present .estop = true ∧
      s.cfg.trip.classOf .estop = .trip ∧
      after (.clearTrip 1#8) s (fun t => (t.seq.state, t.link.sending)) =
        some (.tripped, some (.reply ⟨0x8D#8, 1#8, .stillPresent, []⟩)) :=
  ⟨taken _ (by decide), by decide⟩

/-- The OPEN profile on page 4 with its first marks set. -/
def opened : State :=
  let s := withPage .opened idle
  { s with store := { s.store with
      zoneMarks := [true, true, true] ++ List.replicate 13 false
      stepMarks := [true, true] ++ List.replicate 318 false } }

theorem opened_store : StoreInv opened.store := by
  refine ⟨?_, ?_, ?_, ?_, ?_, ?_, ?_, ?_, ?_⟩ <;> decide +kernel

theorem meets_ProfileOpenTakesPages : Taken idle 1#8 ∧ StoreInv (withPage .written idle).store ∧
    StoreInv opened.store ∧ 5 % 2 ≠ 0 ∧ 40 * 1 < 41 ∧ 40 ≤ 40 * 1 ∧
    (∃ i < 16, (opened.store.page i).state = .opened) ∧
    (∃ i < 16, 4 ≤ i ∧ i < 4 + 1 ∧ ((withPage .written idle).store.page i).state ≠ .free) ∧
    after (.profileOpen 1#8 16 1 1 1 0) idle (·.link.sending) =
      some (some (.reply ⟨0x90#8, 1#8, .invalid, []⟩)) ∧
    after (.profileOpen 1#8 8 8 16 320 0) (withPage .written idle) (fun t =>
      ((t.store.page 15).owner, (t.store.page 8).header)) = some (some 8, some ⟨0, 8, 16, 320⟩) :=
  ⟨taken _ (by decide), written_store, opened_store, by decide, by decide, by decide,
    ⟨4, by decide, by decide⟩, ⟨4, by decide, by decide, by decide, by decide⟩,
    by decide +kernel, by decide +kernel⟩

theorem meets_ProfileDataWrites : Taken opened 1#8 ∧ StoreInv opened.store ∧
    (4 < 16 ∧ (opened.store.page 4).state = .opened ∧ (opened.store.page 4).owner = some 4) ∧
    (opened.store.page 3).state ≠ .opened ∧ opened.store.header 4 = ⟨0, 1, 3, 2⟩ ∧
    DataRecord.check ⟨0, 1, 3, 2⟩ (.zone 2 ⟨2, 1150, 1400⟩) = none ∧
    DataRecord.check ⟨0, 1, 3, 2⟩ (.zone 3 ⟨2, 1150, 1400⟩) = some .range ∧
    DataRecord.check ⟨0, 1, 3, 2⟩ (.step 1 ⟨3, 0, 0, 0, 0, 1800, 120, 300⟩) = none ∧
    DataRecord.check ⟨0, 1, 3, 2⟩ (.step 1 ⟨9, 0, 0, 0, 0, 0, 0, 0⟩) = some .invalid ∧
    (1 < 40 * (opened.store.header 4).size) :=
  ⟨taken _ (by decide), opened_store, by decide, by decide, by decide, by decide, by decide,
    by decide, by decide, by decide⟩

/-- Two records of one index: the last one stands, the place no record names keeps its contents (R175); and the window ranges of
R18. -/
theorem meets_ProfileDataWrites_places :
    let rs : List DataRecord := [.zone 2 ⟨2, 1, 5⟩, .step 1 ⟨4, 0, 0, 0, 0, 0, 0, 9⟩, .zone 2 ⟨1, 2, 7⟩]
    rs.all (fun r => (DataRecord.check ⟨0, 1, 3, 2⟩ r).isNone) = true ∧
      rs = [.zone 2 ⟨2, 1, 5⟩, .step 1 ⟨4, 0, 0, 0, 0, 0, 0, 9⟩] ++ .zone 2 ⟨1, 2, 7⟩ :: [] ∧
      (∀ w', .zone 2 w' ∉ ([] : List DataRecord)) ∧ (∀ w, .zone 0 w ∉ rs) ∧
      after (.profileData 1#8 4 rs) opened (fun t =>
        ((t.store.page 4).windows.getD 2 none, (t.store.page 4).windows.getD 0 none,
          t.store.stepAt 4 1, t.store.stepAt 4 0)) =
        some (some ⟨.density, 2, 7⟩, some ⟨.total, 1150, 1400⟩, some (.holdoff 9), some dwell) ∧
      (Window.ofRecord ⟨1, 100000, 100000⟩, Window.ofRecord ⟨2, 1000000, 0⟩) =
        (some ⟨.density, 100000, 100000⟩, some ⟨.total, 1000000, 0⟩) ∧
      [(⟨1, 100001, 0⟩ : WindowRecord), ⟨2, 0, 1000001⟩, ⟨1, 5, 4⟩, ⟨0, 0, 0⟩].all (fun w =>
        (Window.ofRecord w).isNone) = true :=
  ⟨by decide, rfl, nofun, by simp, by decide +kernel, by decide, by decide⟩

/-- A record that fails both checks is RANGE (log 33); a good one leaves the pages beside the profile as they were. -/
theorem meets_ProfileDataWrites_checks :
    let h : Header := ⟨0, 1, 3, 2⟩
    (DataRecord.check h (.zone 3 ⟨0, 0, 0⟩), DataRecord.check h (.zone 2 ⟨0, 0, 0⟩)) =
        (some .range, some .invalid) ∧
      (DataRecord.check h (.step 2 ⟨0, 0, 0, 0, 0, 0, 0, 0⟩),
        DataRecord.check h (.step 1 ⟨8, 0, 0, 0, 0, 0, 0, 0⟩),
        DataRecord.check h (.step 1 ⟨7, 0, 0, 5, 0, 0, 0, 0⟩)) =
          (some .range, some .invalid, none) ∧
      after (.profileData 1#8 4 [.step 1 ⟨7, 0, 0, 5, 0, 0, 0, 0⟩]) opened (fun t =>
        decide (t.store.page 5 = opened.store.page 5 ∧ t.store.inUse = opened.store.inUse)) =
          some true := by decide +kernel

/-- `opened` with the last window not written, and the written profile in use. -/
def missing : State := { opened with store := { opened.store with zoneMarks := [true, true] ++ List.replicate 14 false } }
def inUse : State :=
  let s := withPage .written idle
  { s with store := { s.store with inUse := some 4 } }

theorem missing_store : StoreInv missing.store := by
  refine ⟨?_, ?_, ?_, ?_, ?_, ?_, ?_, ?_, ?_⟩ <;> decide +kernel

theorem inUse_store : StoreInv inUse.store := by
  refine ⟨?_, ?_, ?_, ?_, ?_, ?_, ?_, ?_, ?_⟩ <;> decide +kernel

theorem meets_ProfileCloseAndErase : Taken opened 1#8 ∧ StoreInv opened.store ∧
    (∀ i < (opened.store.header 4).zones, opened.store.zoneMarks.getD i false = true) ∧
    (∀ i < (opened.store.header 4).steps, opened.store.stepMarks.getD i false = true) ∧
    (∀ i < (opened.store.header 4).steps, ∀ st, opened.store.stepAt 4 i = some st →
      st.closes = false ∧ ∀ z, st.zone? = some z → z < (opened.store.header 4).zones) ∧
    (StoreInv missing.store ∧ missing.store.zoneMarks.getD 2 false = false ∧
      ∀ i < 2, missing.store.zoneMarks.getD i false = true) ∧
    (StoreInv inUse.store ∧ (inUse.store.page 4).state ≠ .free ∧
      (inUse.store.page 4).owner = some 4 ∧ inUse.store.inUse = some 4) ∧
    (withPage .written idle).store.inUse ≠ some 4 ∧ (idle.store.page 4).state = .free := by
  refine ⟨taken _ (by decide), opened_store, by decide, by decide, ?_, ⟨missing_store, by decide,
    by decide⟩, ⟨inUse_store, by decide, by decide, by decide⟩, by decide, by decide⟩
  intro i hi st h
  have e : i = 0 ∨ i = 1 := by
    have : (opened.store.header 4).steps = 2 := rfl
    omega
  rcases e with rfl | rfl <;> cases h <;> exact ⟨rfl, fun z hz => by cases hz; decide⟩

/-- `opened` with its second step not written, with a DWELL on zone 3 of three in its second step, and with an END there. -/
def gap : State := { opened with store := { opened.store with stepMarks := true :: List.replicate 319 false } }
def second (step : ScanStep) : State :=
  let p := { axlePage .opened with slots := some dwell :: some step :: List.replicate 38 none }
  { opened with store := { opened.store with pages := opened.store.pages.set 4 p } }

theorem gap_store : StoreInv gap.store := by
  refine ⟨?_, ?_, ?_, ?_, ?_, ?_, ?_, ?_, ?_⟩ <;> decide +kernel
theorem second_store : StoreInv (second (.dwell 100 10 3 none)).store := by
  refine ⟨?_, ?_, ?_, ?_, ?_, ?_, ?_, ?_, ?_⟩ <;> decide +kernel

/-- MISSING_STEP and BAD_ZONE, each with the index 1 (R176). -/
theorem meets_ProfileCloseAndErase_incomplete :
    (StoreInv gap.store ∧ (∀ i < 3, gap.store.zoneMarks.getD i false = true) ∧
      (gap.store.stepMarks.getD 1 false, gap.store.stepMarks.getD 0 false) = (false, true)) ∧
    (StoreInv (second (.dwell 100 10 3 none)).store ∧
      (second (.dwell 100 10 3 none)).store.stepAt 4 1 = some (.dwell 100 10 3 none) ∧
      (ScanStep.dwell 100 10 3 none).zone? = some 3 ∧
      ((second (.dwell 100 10 3 none)).store.header 4).zones = 3) ∧
    after (.profileClose 1#8 4) gap (·.link.sending) =
      some (some (.reply ⟨0x92#8, 1#8, .incomplete, [2#8, 0#8, 1#8]⟩)) ∧
    after (.profileClose 1#8 4) (second (.dwell 100 10 3 none)) (·.link.sending) =
      some (some (.reply ⟨0x92#8, 1#8, .incomplete, [3#8, 0#8, 1#8]⟩)) ∧
    after (.profileClose 1#8 4) (second .finish) (·.link.sending) =
      some (some (.reply ⟨0x92#8, 1#8, .incomplete, [3#8, 0#8, 1#8]⟩)) :=
  ⟨⟨gap_store, by decide, by decide⟩, ⟨second_store, by decide +kernel, rfl, by decide⟩,
    by decide +kernel, by decide +kernel, by decide +kernel⟩

/-- A closed record of number `n`. -/
def closed (n : Nat) : PartRecord := { record43 with number := n }.close .complete 0 none

/-- IDLE with records 41 and 42 in the list; `running` has record 43 open. -/
def listed : State := { idle with zones := { idle.zones with closed := [closed 41, closed 42] } }

theorem meets_ListAndRecordGet : Taken listed 1#8 ∧ listed.zones.closed = closed 41 :: [closed 42] ∧
    idle.zones.closed = [] ∧ (listed.zones.closed = [closed 41] ++ closed 42 :: [] ∧
      (∀ x ∈ [closed 41], x.number ≠ 42) ∧ (closed 42).number = 42) ∧
    (Taken (quiet running) 1#8 ∧ (∀ x ∈ (quiet running).zones.closed, x.number ≠ 43) ∧
      (quiet running).zones.openRec = some record43 ∧ record43.number = 43) ∧
    7 ∉ listed.zones.numbers :=
  ⟨taken _ (by decide), by decide, by decide, by decide,
    ⟨taken _ (by decide), by decide, by decide, by decide⟩, by decide⟩

theorem meets_RecordReleaseFrees : Taken listed 1#8 ∧ listed.zones.numbers.Nodup ∧
    listed.zones.closed = [closed 41] ++ closed 42 :: [] ∧ (closed 42).number = 42 ∧
    (Taken (quiet running) 1#8 ∧ (quiet running).zones.numbers.Nodup ∧
      (quiet running).zones.openRec = some record43 ∧ record43.number = 43) ∧
    65535 ∉ listed.zones.numbers :=
  ⟨taken _ (by decide), by decide, by decide, by decide,
    ⟨taken _ (by decide), by decide, by decide, by decide⟩, by decide⟩

/-- A record whose windows set no bound. -/
def unbounded : OpenRecord := { record43 with zones := [⟨⟨.total, 0, 0⟩, .start⟩], lastZone := some 0 }

theorem meets_VerdictOfARecord :
    ({ unbounded with powered := false } : OpenRecord).powered = false ∧ unbounded.powered = true ∧
      (∀ z ∈ (unbounded.close .complete 0 none).zones, z.outLow = false ∧ z.outHigh = false ∧
        z.quenchShort = false ∧ z.interrupted = false) ∧
      (unbounded.close .complete 0 none).verdict = .pass ∧
      (∃ z ∈ (unbounded.close .stopped 0 none).zones, z.interrupted = true) ∧
      (unbounded.close .stopped 0 none).verdict = .reject := by decide

/-- The windows of R161 at their limits: density and total, low and high, the short length, and the record's total (R163). -/
theorem meets_VerdictOfARecord_windows :
    let zone (k : WindowKind) (low high energy length : Nat) : ZoneEntry :=
      ⟨⟨k, low, high⟩, { ZoneAcc.start with energy := energy, length := length }⟩
    let r : OpenRecord := { record43 with
      zones := [zone .density 8500 9500 85000 1000, zone .density 8500 9500 84999 1000,
        zone .density 8500 9500 95009 1000, zone .density 8500 9500 95010 1000,
        zone .density 0 0 85000 999, zone .total 1150 1400 11500000 0,
        zone .total 1150 1400 11499999 0, zone .total 1150 1400 14000009 0,
        zone .total 1150 1400 14000010 0] }
    let p := r.close .complete 0 none
    (p.zones.map fun z => (z.outLow, z.outHigh)) =
        [(false, false), (true, false), (false, false), (false, true), (true, false),
          (false, false), (true, false), (false, false), (false, true)] ∧
      p.zones.map (·.density) =
        [some 8500, some 8499, some 9500, some 9501, some 8508, none, none, none, none] ∧
      p.total = 8500 + 8499 + 9500 + 9501 + 8500 + 1150000 + 1149999 + 1400000 + 1400001 := by
  decide +kernel

/-- IDLE with the FAULT line active. -/
def faulted : State := { idle with inputs := { idle.inputs with fault := true } }

def encoderOut : State := { idle with inputs := { idle.inputs with encoder := true } }

theorem meets_RestartAndReset : Taken idle 1#8 ∧ idle.seq.state.isRest = true ∧
    (idle.inputs.fault = false ∧ idle.inputs.encoder = false ∧ idle.inputs.estop = false) ∧
    (Taken faulted 1#8 ∧ RecordInv faulted ∧ faulted.inputs.fault = true) ∧
    (Taken encoderOut 1#8 ∧ RecordInv encoderOut ∧ encoderOut.inputs.encoder = true) ∧
    Taken (quiet running) 1#8 ∧ ¬(running.seq.state.isRest = true ∨ running.seq.state = .tripped) ∧
    after .reset encoderOut (fun t => (t.seq.state, t.travel.referenced,
      t.trip.record.map (·.cause))) = some (.tripped, false, some .encoderFault) := by
  refine ⟨taken _ (by decide), by decide, by decide, ⟨taken _ (by decide), ?_, by decide⟩,
    ⟨taken _ (by decide), ?_, by decide⟩, taken _ (by decide), by decide, by decide⟩ <;>
  (unfold RecordInv; decide)

theorem meets_SampleHoldsInIdle : idle.seq.state = .idle ∧ idle.seq.active = none ∧
    idle.seq.passDir = none ∧ idle.quench.trailsEmpty = true ∧ idle.travel.mode = .hold ∧
    idle.travel.driveEnable = true ∧ idle.travel.planSpeed = 0 ∧
    idle.travel.history = List.replicate 16 idle.travel.position ∧
    -2147483648 ≤ idle.travel.position ∧ idle.travel.position < 2147483648 ∧
    (idle.travel.plan.tdiv 1000 - idle.travel.position).natAbs ≤ idle.cfg.machine.feLimit ∧
    idle.inputs.encoder = false ∧ idle.zones.openRec = none := by decide

/-- A referenced carriage at 0 with empty trails whose plan stands at `plan` with `speed`, in a mode. -/
def moving (mode : TravelMode) (plan speed : Int) : State :=
  { idle with travel := { idle.travel with
      mode := mode, plan := plan, planSpeed := speed, dir := some .forward, targetSpeed := 800
      stopPoint := some 900000, homingStart := some 0 } }

/-- RUNNING in the body section with empty trails, the plan and the speed as given. -/
def scanning (plan speed : Int) (next : Option Admitted) (finish : Finish) : State :=
  { running with
    seq := { running.seq with next := next }
    quench := { running.quench with trail := ⟨.empty, .empty⟩ }
    travel := { running.travel with
      position := plan / 1000, history := List.replicate 16 (plan / 1000), plan := plan
      planSpeed := speed, finish := finish } }

/-- Mode, plan and planned speed after a sample of no counts. -/
def driven (s : State) : Option (TravelMode × Int × Int) :=
  after (.positionSample 0 120 false false false) s fun t =>
    (t.travel.mode, t.travel.plan, t.travel.planSpeed)

/-- Nothing is newly raised at a sample in each mode, and the generator does what R51, R52 and R57 say: at 200 mm/s² the planned speed
moves by 200 µm/s a sample. -/
theorem meets_SampleDrivesCarriage :
    (∃ t, exec (.positionSample 0 120 false false false) (scanning 600000000 8000 none .none) = .next t ∧
      NoneRaised (scanning 600000000 8000 none .none) t ∧
      (scanning 600000000 8000 none .none).quench.trailsEmpty = true ∧
      t.travel.driveEnable = true) ∧
    (driven running = some (.scan, 600008000, 8000) ∧ running.quench.trailsEmpty = false) ∧
    (bodyActive.step.isMotion = true ∧ bodyActive.dir = some .forward ∧
      Dir.forward.reached 600000 bodyActive.stop = false) ∧
    idle.cfg.machine.accel = 200 ∧
    driven (moving .hold 0 0) = some (.hold, 0, 0) ∧
    driven (moving .stopping 0 500) = some (.stopping, 300, 300) ∧
    driven (moving .drain 0 7900) = some (.drain, 8000, 8000) ∧
    driven (moving .seek 0 100) = some (.seek, 300, 300) ∧
    driven { cold with travel := { cold.travel with position := 7 } } = some (.disabled, 7000, 0) ∧
    driven (moving .target 899999999 100) = some (.target, 900000000, 0) := by
  refine ⟨⟨_, rfl, ?_, by decide, by decide⟩, by decide, by decide⟩
  unfold NoneRaised
  decide

/-- SEEK ends on the switch, or past the homing stroke; TARGET marks its arrival at the position reached (R62, R63). -/
theorem meets_SampleDrivesCarriage_ends :
    (let far := { moving .seek 0 0 with travel := { (moving .seek 0 0).travel with
        homingStart := some (-2400000) } };
      far.cfg.machine.homingStroke = 2400000 ∧ driven far = some (.seek, 200, 200) ∧
      after (.positionSample 1 0 false false false) far (·.travel.mode) = some .stopping) ∧
    after (.positionSample 0 0 true false false) (moving .seek 0 0) (fun t =>
      (t.travel.mode, t.travel.switchFound)) = some (.stopping, true) ∧
    (let near := { at_ .positioning (moving .target 0 0) with
        travel := { (moving .target 0 0).travel with stopPoint := some 1 } };
      after (.positionSample 1 0 false false false) near (·.travel.arrivalSeen) = some true ∧
      driven { near with travel := { near.travel with dir := none, plan := 1000 } } =
        some (.target, 1000, 0) ∧
      after (.positionSample 0 0 false false false) { near with
        travel := { near.travel with dir := none, plan := 1000 } } (·.travel.arrivalSeen) = some true ∧
      after (.positionSample 0 0 false false false) near (·.travel.arrivalSeen) = some false) := by
  decide

/-- At 8.00 mm/s the braking distance is 160 µm, so the decision falls within 1,160 of the end at 900,000: to CONTINUE into the next
section of the pass, to BRAKE onto the end, or to BRAKE without a stop point where the cap is passed by more than one step of the
speed (R56, R57); a stop being finished keeps its stop point (log 16). -/
theorem meets_SampleDrivesCarriage_decides :
    let decided (s : State) := after (.positionSample 0 120 false false false) s fun t =>
      (t.travel.decision, t.travel.stopPoint)
    splineNext.step.isMotion = true ∧ splineNext.turn = false ∧ splineNext.dir = some .forward ∧
      decided (scanning 898839000 8000 none .none) = some (.none, none) ∧
      decided (scanning 898840000 8000 (some splineNext) .none) = some (.continue, none) ∧
      decided (scanning 898840000 8000 none .none) = some (.brake, some 900000) ∧
      decided (scanning 899900000 8000 none .none) = some (.brake, none) ∧
      decided (scanning 899900000 8000 none (.at 899950)) = some (.brake, some 900000) := by decide

/-- R97, R98: Q2 sits 70,000 behind the coil and leads by 1,200 at 8.00 mm/s, so its entry at 580,000 falls due at 648,800. -/
theorem meets_ReleaseTakesDueEntries :
    let at_ (pos : Int) := running.quench.release QuenchCfg.default .forward pos 800 .q2
    ((at_ 648799).trail.q2.entries, (at_ 648799).circuit.q2.valve) = ([⟨580000, true⟩], false) ∧
      ((at_ 648800).trail.q2.entries, (at_ 648800).circuit.q2.valve) = ([], true) := by decide

/-- The watch with the valve: PROVING with its timer, PROVED at once with a flow-min of 0, CLOSED behind an OFF (R99, R104, R106). -/
theorem meets_ReleaseTakesDueEntries_watch :
    let go (c : QuenchCfg) (on : Bool) (w : CircuitState) :=
      (({ running.quench with
          trail := ⟨.empty, ⟨[⟨580000, on⟩], false⟩⟩, circuit := ⟨.closed, w, .closed⟩ } : Quench).release
        c .forward 648800 800 .q2).circuit.q2
    QuenchCfg.default.flowMin.q2 ≠ 0 ∧
      go .default true .closed = ⟨true, .proving, some QuenchCfg.default.proving, none⟩ ∧
      go { QuenchCfg.default with flowMin := ⟨0, 0, 0⟩ } true .closed = ⟨true, .proved, none, none⟩ ∧
      go .default false ⟨true, .proved, none, some 4⟩ = .closed := by decide

/-- The state a µm short of 648,800, with Q2's entry, a position 16 samples ago, and 19 samples of rest. -/
def releasing (s : State) (old : Int) : State :=
  { s with
    travel := { s.travel with
      position := 648799, plan := 648799000, history := List.replicate 16 old, still := 19 }
    quench := { s.quench with trail := running.quench.trail } }
def draining : State :=
  { running with seq := { running.seq with active := none, turnPhase := .drain } }

/-- A carriage at 648,799 that came 127 µm in 16 samples, or that has stood for 19: the sample that reaches 648,800 releases the last
entry, in the DRAIN of a turn, in RUNOUT and under RUNOUT, and a standing carriage releases nothing (R99, R100). -/
theorem meets_ReleaseTakesDueEntries_sample :
    let go (s : State) (old : Int) := after (.positionSample 1 120 false false false)
      (releasing s old) fun t =>
        (t.quench.trailsEmpty, t.quench.circuit.q2.valve, t.seq.turnPhase, t.travel.mode,
          t.trip.trailsSeen)
    (∃ t, exec (.positionSample 1 120 false false false) (releasing draining 648672) = .next t ∧
        NoneRaised (releasing draining 648672) t) ∧
      (releasing draining 648672).quench.trailsEmpty = false ∧
      go draining 648672 = some (true, true, .stopping, .stopping, false) ∧
      go drained 648672 = some (true, true, .none, .stopping, false) ∧
      go runoutTrip 648672 = some (true, true, .none, .stopping, true) ∧
      go running 648672 = some (true, true, .none, .scan, false) ∧
      go running 648800 = some (false, false, .none, .scan, false) := by
  refine ⟨⟨_, rfl, ?_⟩, by decide, by decide, by decide, by decide, by decide, by decide⟩
  unfold NoneRaised
  decide

/-- The same power with an INV_P value of 715 that is 2 ms old: e is 5, the accumulator moves by trunc(5,000 / 720) = 6. -/
def learning : State :=
  { running with meas := { running.meas with
      chan := running.meas.chan.set .invP
        { ChannelRec.reset 1 with published := some 715, age := some 2 } } }

theorem meets_CorrectionLearns :
    (learning.power.inhibit = false ∧ learning.seq.state = .running ∧
      learning.meas.chan.invP.published = some 715 ∧ learning.meas.chan.invP.age = some 2 ∧
      0 < learning.power.pOut ∧
      learning.cfg.machine.floorShare * learning.cfg.machine.pRated / 1000 ≤ learning.power.pOut ∧
      learning.power.ceiling = .none) ∧
    after .powerUpdate learning (·.power.acc) = some 646 ∧
    idle.meas.chan.invP.published = none ∧ after .powerUpdate running (·.power.acc) = some 640 := by
  decide

theorem meets_NoHeatingNoPower : tripping.seq.state = .tripping ∧ idle.heatingZone = none ∧
    after .powerUpdate (at_ .tripped running) (·.power.pOut) = some 0 := by decide

theorem meets_CeilingAndRamp : stage5 2500 2500 2500 = (2500, .none) ∧
    stage7 770 720 50 2500 false = 770 ∧ stage7 771 720 50 2500 false = 770 ∧
    stage7 669 720 50 2500 false = 670 ∧ stage7 669 720 50 670 false = 670 ∧
    stage7 669 720 50 669 false = 0 := by decide

/-- RUNNING in a step at a speed, a trim, an accumulator and the output of the update before. -/
def heating (step : ScanStep) (v : Int) (trim : Nat) (acc : Int) (prev : Nat) : State :=
  { running with
    seq := { running.seq with
      active := some (admitted step 180000 900000 (some .forward)), trimT := trim }
    travel := { running.travel with speed := v }
    power := { running.power with acc := acc, pOut := prev }
    meas := { running.meas with
      chan := running.meas.chan.set .invP
        { ChannelRec.reset 1 with published := some 800, age := some 1 } } }
def capped (level share : Nat) (s : State) : State :=
  { s with
    power := { s.power with coilOver := true }
    cfg := { s.cfg with
      machine := { s.cfg.machine with floorShare := share }
      trip := { s.cfg.trip with capCoilOver := level } } }
def updated (s : State) : Option (Nat × Ceiling × Bool × Nat) :=
  after .powerUpdate s fun t => (t.power.pOut, t.power.ceiling, t.power.underFloor, t.power.code)

/-- 4.7, one update in a HEAT step; COIL_OVERCURRENT under a cap of 80 % from an output of 2,500, and from 0; a cap of 250 under a
floor of 500, for a demand below the cap (NONE) and above it (LIMITED), both under-floor (log 21). -/
theorem meets_CeilingAndRamp_output :
    [heating (.heat 900000 800 12000 1 .keep .on none) 650 1040 980 810,
      heating (.heat 900000 800 30000 1 .keep .on none) 1000 1000 0 2480,
      capped 80 20 (heating (.heat 900000 800 30000 1 .keep .on none) 1000 1000 0 2500),
      capped 80 20 (heating (.heat 900000 800 30000 1 .keep .on none) 1000 1000 0 0),
      capped 10 200 (heating (.dwell 250 300 0 none) 0 1000 0 0),
      capped 10 200 (heating (.dwell 251 300 0 none) 0 1000 0 0)].map updated =
      [some (823, .none, false, 1348), some (2500, .saturated, false, 4095),
        some (0, .limited, false, 0), some (50, .limited, false, 82), some (0, .none, true, 0),
        some (0, .limited, true, 0)] := by decide

/-- The INV_P value of 715 is added to the zone being heated, zone 1, and to no other (R156). -/
theorem meets_UpdateCountedToZone : learning.zones.openRec = some record43 ∧
    record43.current = some ⟨1, true⟩ ∧ learning.seq.state = .running ∧
    learning.power.inhibit = false ∧ record43.zones[1]? = some ⟨⟨.density, 8500, 9500⟩, .start⟩ ∧
    after .powerUpdate learning (fun t => t.zones.openRec.map fun r =>
      r.zones.map (·.acc.energy)) = some (some [0, 715, 0]) ∧ prestart.seq.state ≠ .running := by decide

/-- A sample of 8 µm under the body section's HEAT step is counted to zone 1 alone (R157). -/
theorem meets_UpdateCountedToZone_sample :
    record43.current = some ⟨1, true⟩ ∧ 0 < record43.pOut ∧
      after (.positionSample 8 120 false false false) running (fun t =>
        t.zones.openRec.map fun r => r.zones.map (·.acc.length)) = some (some [0, 8, 0]) ∧
      after (.positionSample 8 120 false false false) running (fun t =>
        t.zones.openRec.map fun r => r.zones.map (·.acc.extent)) =
          some (some [none, some (600000, 600008), none]) := by decide

/-- R159 at the ends of an extent: with Q1 LOW, its offset 20,000 behind the coil, the sample at 600,008 reports 580,008. -/
theorem meets_UpdateCountedToZone_short :
    let zone (lo hi : Int) : ZoneEntry :=
      ⟨⟨.density, 0, 0⟩, { ZoneAcc.start with extent := some (lo, hi) }⟩
    let s : State := { running with
      quench := { running.quench with
        circuit := { running.quench.circuit with q1 := ⟨true, .low, none, none⟩ } }
      zones := { running.zones with openRec := some { record43 with
        zones := [zone 500000 580008, zone 580009 600000, zone 580008 580008] } } }
    s.cfg.quench.offset.q1 = 20000 ∧
      after (.positionSample 8 120 false false false) s (fun t =>
        t.zones.openRec.map fun r => r.zones.map (·.acc.quenchShort)) =
          some (some [true, false, true]) := by decide

/-- RUNNING in the DWELL with one tick left; `dwellLast` has nothing behind it. -/
def dwelling : State :=
  { running with seq := { running.seq with active := some dwellActive, stepTimer := some 1 } }
def dwellLast : State := { dwelling with seq := { dwelling.seq with next := none } }

theorem dwellLast_trails : TrailInv dwellLast := by intro r; cases r <;> decide

theorem meets_StepTimerTicks : running.seq.stepTimer = none ∧
    ({ dwelling.seq with stepTimer := some 2 } : Seq).stepTimer = some 2 ∧
    (dwelling.seq.stepTimer = some 1 ∧ dwelling.seq.state = .running ∧
      dwelling.seq.active = some dwellActive ∧ dwelling.seq.next = some splineNext ∧
      splineNext.turn = false ∧ HasTrailRoom dwelling) ∧
    (dwellLast.seq.next = none ∧ (∀ q ∈ dwellLast.seq.queue, q.step.isMark = true) ∧
      TrailInv dwellLast ∧ HasTrailRoom dwellLast ∧ dwellActive.step.isMotion = false) :=
  ⟨by decide, by decide, ⟨by decide, by decide, by decide, by decide, by decide, by decide, by decide⟩,
    by decide, by decide, dwellLast_trails, ⟨by decide, by decide⟩, by decide⟩

/-- The HEAT step behind the DWELL starts under PYRO_HIGH in the WARN class: its zone 2 is flagged (R135, R158). -/
theorem meets_StepTimerTicks_warn :
    let s : State := { dwelling with
      power := { dwelling.power with pyroHigh := true }
      cfg := { dwelling.cfg with trip := { dwelling.cfg.trip with classPyro := .warn } } }
    s.present .pyroHigh = true ∧ s.cfg.trip.classOf .pyroHigh = .warn ∧
      after .stepTimerExpiry s (fun t =>
        t.zones.openRec.map fun r => r.zones.map (·.acc.warn)) =
          some (some [false, false, true]) := by decide

/-- RUNNING a micrometre before the end of the body section. -/
def nearEnd (next : Option Admitted) (queue : List QStep) (supply : Bool) : State :=
  { running with
    seq := { running.seq with next := next, queue := queue }
    travel := { running.travel with
      position := 899999, plan := 899999000, history := List.replicate 16 899900 }
    quench := { running.quench with
      supplyReady := supply, trail := ⟨.empty, ⟨[⟨890000, true⟩], false⟩⟩ } }

def turnNext : Admitted :=
  { admitted (.move 100000 2000 .keep .keep) 900000 100000 (some .reverse) with turn := true }

theorem nearEnd_trails (queue : List QStep) (supply : Bool) : TrailInv (nearEnd none queue supply) := by
  intro r; cases r <;> exact ⟨Nat.le_of_ble_eq_true rfl, rfl⟩

/-- The sample that reaches 900,000 raises nothing and ends the step, to each of its four ends. -/
theorem meets_StepTimerTicks_sample :
    (∃ t, exec (.positionSample 1 120 false false false) (nearEnd (some splineNext) [] true) = .next t ∧
      NoneRaised (nearEnd (some splineNext) [] true) t ∧ bodyActive.dir = some .forward ∧
      Dir.forward.reached t.travel.position bodyActive.stop = true ∧
      HasTrailRoom (nearEnd (some splineNext) [] true)) ∧
    turnNext.turn = true ∧ TrailInv (nearEnd none [] true) ∧
    (after (.positionSample 1 120 false false false) (nearEnd (some splineNext) [] true) fun t =>
      t.seq.active) = some (some splineNext) ∧
    (after (.positionSample 1 120 false false false) (nearEnd (some turnNext) [] true) fun t =>
      (t.seq.active, t.seq.turnPhase)) = some (none, .drain) ∧
    (after (.positionSample 1 120 false false false) (nearEnd none [⟨.mark 9, .profile, 6⟩] true) fun t =>
      (t.seq.state, t.seq.lastEnd)) = some (.runout, some .complete) ∧
    (after (.positionSample 1 120 false false false) (nearEnd none [⟨dwell, .profile, 6⟩] false) fun t =>
      (t.seq.state, t.seq.lastEnd)) = some (.runout, some .supplyLost) ∧
    (after (.positionSample 1 120 false false false) (nearEnd none [⟨dwell, .profile, 6⟩] true) fun t =>
      (t.seq.state, t.seq.active, t.travel.mode)) = some (.running, none, .hold) ∧
    (let s := nearEnd (some turnNext) [] true;
      after (.positionSample 1 120 false false false) { s with quench := { s.quench with
        trail := ⟨.empty, .empty⟩ } } fun t => (t.seq.turnPhase, t.travel.mode)) =
      some (.none, .hold) := by
  refine ⟨⟨_, rfl, ?_, by decide, by decide, by decide, by decide⟩, by decide, nearEnd_trails _ _,
    by decide, by decide, by decide, by decide, by decide, by decide⟩
  unfold NoneRaised
  decide

/-- The OFF entry of Q1 stands at the nominal end of 900,000, though the sample finds the carriage 4 beyond it; with a SPRAY Active
that owns Q3 the last tick closes Q3, and leaves a flood alone (R35, R45, R102). -/
theorem meets_StepTimerTicks_nominal :
    after (.positionSample 5 120 false false false) (nearEnd none [] true) (fun t =>
      (t.travel.position, t.quench.trail.q1.entries)) = some (900004, [⟨900000, false⟩]) ∧
    (let s : Q3Owner → State := fun o => { dwelling with
        seq := { dwelling.seq with active := some (admitted (.spray 5) 120000 120000 none) }
        quench := { dwelling.quench with
          circuit := ⟨⟨true, .proved, none, none⟩, .closed, ⟨true, .proved, none, none⟩⟩
          q3Owner := o } };
      (s .spray).seq.stepTimer = some 1 ∧
        after .stepTimerExpiry (s .spray) (fun t => (t.quench.circuit.q3.valve, t.quench.q3Owner)) =
          some (false, .none) ∧
        after .stepTimerExpiry (s .flood) (fun t => (t.quench.circuit.q3.valve, t.quench.q3Owner)) =
          some (true, .flood)) := by decide

/-- A HEAT behind the DWELL: the entry its setting asks for at its nominal start, its marks, and a ZONE shadow for its new zone, none
for the old one (R6, R12, R32, R41, R94). -/
theorem meets_StepTimerTicks_handed :
    let next : Admitted := { admitted (.heat 960000 1000 4000 2 .off .keep none) 900000 960000
      (some .forward) with marks := [9, 4] }
    let s (zone : Nat) : State := quiet { dwelling with
      seq := { dwelling.seq with
        next := some next, shadow := some ⟨1100, 900, .zone⟩, lastZone := some zone } }
    HasTrailRoom (s 1) ∧ next.turn = false ∧
      after .stepTimerExpiry (s 1) (fun t => (t.seq.trimT, t.seq.trimS, t.seq.shadow, t.travel.targetSpeed,
        t.quench.trail.q1.entries)) = some (1100, 900, none, 900, [⟨900000, false⟩]) ∧
      after .stepTimerExpiry (s 1) (fun t => (t.link.sending, t.link.out)) =
        some (some (.notice (.mark 9)), [.notice (.mark 4)]) ∧
      after .stepTimerExpiry (s 2) (fun t => (t.seq.trimT, t.seq.shadow.isSome)) =
        some (1000, true) :=
  ⟨⟨by decide, by decide⟩, by decide, by decide, by decide, by decide⟩

/-- The last tick of the DWELL before a turn, before an admission that is due, and without the supply. -/
def ending (next : Option Admitted) (queue : List QStep) (supply : Bool) (trail : PerRing Trail) : State :=
  { dwelling with
    seq := { dwelling.seq with next := next, queue := queue }
    quench := { dwelling.quench with supplyReady := supply, trail := trail } }

theorem ending_trails : TrailInv (ending none [⟨body, .profile, 6⟩] false ⟨.empty, .empty⟩) := by
  intro r; cases r <;> decide

/-- The spline at a point where Q1 has no place left. -/
def offNext : Admitted := admitted (.heat 960000 1000 4000 2 .off .keep none) 900000 960000 (some .forward)

theorem meets_StepTimerTicks_ends :
    (let s := ending (some turnNext) [] true ⟨.empty, .empty⟩;
      s.seq.stepTimer = some 1 ∧ s.seq.active = some dwellActive ∧ s.quench.trailsEmpty = true ∧
        s.travel.mode ≠ .disabled ∧ after .stepTimerExpiry s (fun t => (t.seq.active, t.travel.mode)) =
          some (none, .hold)) ∧
    (let s := ending (some turnNext) [] true running.quench.trail;
      s.quench.trailsEmpty = false ∧ s.seq.passDir = some .forward ∧
        after .stepTimerExpiry s (fun t => (t.seq.turnPhase, t.travel.mode)) = some (.drain, .drain)) ∧
    (let s := ending none [⟨body, .profile, 6⟩] true running.quench.trail;
      (∃ q ∈ s.seq.queue, q.step.isMark = false) ∧ s.quench.supplyReady = true ∧
        after .stepTimerExpiry s (fun t => (t.seq.state, t.seq.active)) = some (.running, none)) ∧
    (let s := ending none [⟨body, .profile, 6⟩] false ⟨.empty, .empty⟩;
      s.quench.supplyReady = false ∧ TrailInv s ∧ HasTrailRoom s ∧
        after .stepTimerExpiry s (·.seq.lastEnd) = some (some .supplyLost)) ∧
    (let s := ending (some offNext) [] true fullTrail;
      s.trip.latch = false ∧ s.quench.trailFull = false ∧
        offNext.step.settings? = some ⟨.off, .keep⟩ ∧
        s.seq.passDir = some .forward ∧ s.quench.trail.q1.entries.length = 16 ∧
        s.quench.trail.q1.entries.getLast? = some ⟨800015, true⟩ ∧
        Dir.forward.beyond offNext.start 800015 = true ∧
        after .stepTimerExpiry s (fun t => t.trip.record.map (·.cause)) =
          some (some .trailFull)) :=
  ⟨by decide, by decide, ⟨⟨_, List.mem_singleton.2 rfl, by decide⟩, by decide, by decide⟩,
    ⟨by decide, ending_trails, ⟨by decide, by decide⟩, by decide⟩, by decide⟩

/-- IDLE with a converter at work. -/
def converting (b : Burst) : State := { idle with meas := { idle.meas with converter := some b } }
def calAll : State :=
  { running with cfg := { running.cfg with measure := { running.cfg.measure with calMode := .all } } }
def owing : State :=
  { converting ⟨.pyro, .sample, 4, 4, 0, false⟩ with
    meas := { (converting ⟨.pyro, .sample, 4, 4, 0, false⟩).meas with owed := [.invP, .pyro] } }

def queued : State :=
  { running with meas := { running.meas with waiting := [⟨.flow1, .sample, 0, false⟩] } }

theorem meets_TimersQueueRequests :
    (running.meas.converter = some ⟨.invP, .sample, 4, 2, 20484, false⟩ ∧
      ∀ w ∈ running.meas.waiting, ¬(w.channel = .flow2 ∧ w.kind = .sample)) ∧
    (queued.meas.converter = some ⟨.invP, .sample, 4, 2, 20484, false⟩ ∧
      ⟨.flow1, .sample, 0, false⟩ ∈ queued.meas.waiting) ∧
    (idle.meas.converter = none ∧ idle.meas.waiting = [] ∧ 1 ≤ idle.cfg.measure.relax) ∧
    (calAll.cfg.measure.calMode = .all ∧ calAll.power.pOut ≠ 0) ∧
    (let s := converting ⟨.pyro, .sample, 4, 4, 0, false⟩;
      s.meas.converter = some ⟨.pyro, .sample, 4, 4, 0, false⟩ ∧ s.cfg.measure.calMode = .rotate ∧
        (∀ c ∈ s.meas.owed, ¬(c.cls ≠ .urgent ∨ s.power.pOut = 0)) ∧
        (s.meas.calPointer.cls ≠ .urgent ∨ s.power.pOut = 0)) ∧
    (owing.meas.converter.isSome = true ∧ owing.cfg.measure.calMode = .rotate ∧
      owing.meas.owed = [.invP, .pyro] ∧ owing.power.pOut = 0 ∧ Channel.invP ∉ [Channel.pyro]) := by
  decide

/-- The arbiter's clauses: some request waits; the choice; the grant of `arbitration`, whose promoted calibration waits behind COIL_I
and is passed by once more. -/
theorem meets_TimersQueueRequests_grants :
    arbitration.waiting ≠ [] ∧ arbitration.converter = none ∧
      arbitration.choose = some (⟨.coilI, .sample, 0, false⟩, .urgent) ∧
      ({ arbitration with waiting := [⟨.qTemp, .sample, 0, false⟩] } : Meas).choose =
        some (⟨.qTemp, .sample, 0, false⟩, .background) ∧
      ((arbitration.grant MeasureCfg.default true).waiting.map fun w => (w.channel, w.passes, w.promoted)) =
        [(.invP, 1, false), (.pyro, 1, false), (.flow1, 1, false), (.flow2, 1, false), (.flow3, 1, false),
          (.qPress, 1, false), (.flow2, 4, true)] := by decide

/-- ROTATE with power on and the pointer at INV_P: INV_P and PYRO join the owed set and FLOW1 is queued; ALL with power off queues the
eight that do not wait yet; a chosen calibration of PYRO is withdrawn under power and the next request is granted (R125, R126). -/
theorem meets_TimersQueueRequests_power :
    let walk : State := { running with meas := { running.meas with calPointer := .invP } }
    let off : State := { calAll with power := calAll.power.zero }
    let pyro : Meas := { idle.meas with
      waiting := [⟨.pyro, .calibration, 4, true⟩, ⟨.flow1, .sample, 0, false⟩] }
    (walk.cfg.measure.calMode = .rotate ∧ walk.meas.owed = [] ∧ walk.power.pOut = 720) ∧
      after .calibrationTimerExpiry walk (fun t =>
        (t.meas.owed, t.meas.calPointer, t.meas.waiting.map (·.channel))) =
          some ([.invP, .pyro], .flow2, [.flow2, .flow1]) ∧
      after .calibrationTimerExpiry off (fun t => t.meas.waiting.map (·.channel)) =
        some [.flow2, .coilI, .invP, .pyro, .flow1, .flow3, .qPress, .qTemp, .coilWater] ∧
      pyro.converter = none ∧
      pyro.choose = some (⟨.pyro, .calibration, 4, true⟩, .urgent) ∧
      (pyro.grant MeasureCfg.default true).converter.map (·.channel) = some .flow1 ∧
      (pyro.grant MeasureCfg.default true).waiting = [] ∧
      (pyro.grant MeasureCfg.default true).owed = [.pyro] ∧
      (pyro.grant { MeasureCfg.default with calMode := .all } true).owed = [] := by decide

/-- The last code of a good INV_P burst of 40,965 gives (10,241 − 2,048) × 100 / 1,000; an offset of 512 is kept, 513 is not. -/
theorem meets_ConversionsComplete :
    idle.meas.converter = none ∧ (1 < 2 ∧ running.meas.converter = some ⟨.invP, .sample, 4, 2, 20484, false⟩) ∧
      after (.conversionComplete 10243) (converting ⟨.invP, .sample, 4, 1, 30722, false⟩)
        (fun t => (t.meas.chan.invP.published, t.meas.chan.invP.age)) = some (some 819, some 0) ∧
      after (.conversionComplete 960) (converting ⟨.flow2, .calibration, 16, 1, 40000, false⟩)
        (fun t => (t.meas.chan.flow2.offset, t.meas.chan.flow2.calibrated)) = some (512, true) ∧
      after (.conversionComplete 976) (converting ⟨.flow2, .calibration, 16, 1, 40000, false⟩)
        (fun t => (t.meas.chan.flow2.offset, t.meas.chan.flow2.calibrated)) = some (0, false) := by
  decide

/-- FLOW1 in a fault mode with 500 as its last good value and `held` missed samples behind it, one code of its burst to come. -/
def flowMissing (mode : FaultMode) (held : Nat) : State :=
  let s := converting ⟨.flow1, .sample, 4, 1, 30000, false⟩
  { s with
    cfg := { s.cfg with measure := { s.cfg.measure with
      chan := s.cfg.measure.chan.set .flow1
        { s.cfg.measure.chan.get .flow1 with mode := mode, substitute := 77 } } }
    meas := { s.meas with
      chan := s.meas.chan.set .flow1
        { s.meas.chan.get .flow1 with
          calibrated := true, published := some 500, lastGood := some 500, age := some 9, held := held } } }

/-- A code at the rail makes a faulted sample: HOLD republishes the last good value until its count passes the stale limit of 3,
SUBSTITUTE publishes its own, FAULT raises at once (R121, R123, R124). -/
theorem meets_ConversionsComplete_faulted :
    (flowMissing .hold 3).cfg.measure.stale = 3 ∧ (flowMissing .hold 3).meas.waiting = [] ∧
      (flowMissing .fault 0).cfg.trip.classSensor = .trip ∧ (flowMissing .fault 0).trip.latch = false ∧
      after (.conversionComplete 65535) (flowMissing .hold 2) (fun t =>
        (t.meas.chan.flow1.published, t.meas.chan.flow1.held, t.meas.chan.flow1.sensorFault)) =
        some (some 500, 3, false) ∧
      after (.conversionComplete 65535) (flowMissing .hold 3) (fun t =>
        (t.meas.chan.flow1.held, t.meas.chan.flow1.sensorFault)) = some (4, true) ∧
      after (.conversionComplete 0) (flowMissing .substitute 3) (fun t =>
        (t.meas.chan.flow1.published, t.meas.chan.flow1.held)) = some (some 77, 0) ∧
      after (.conversionComplete 0) (converting ⟨.invP, .sample, 4, 1, 30000, false⟩) (fun t =>
        t.meas.chan.invP.held) = some 1 := by decide

/-- A SENSOR_FAULT of INV_P in the TRIP class latches with its channel (R123, R124). -/
def invFault : State :=
  let s := converting ⟨.invP, .sample, 4, 1, 30000, false⟩
  { s with cfg := { s.cfg with measure := { s.cfg.measure with
      chan := s.cfg.measure.chan.set .invP { s.cfg.measure.chan.get .invP with mode := .fault } } } }

theorem meets_ConversionsComplete_sensor :
    invFault.meas.chan.invP.sensorFault = false ∧ invFault.cfg.trip.classSensor = .trip ∧
      invFault.trip.latch = false ∧ after (.conversionComplete 0) invFault (fun t =>
        t.trip.record.map fun r => (r.cause, r.channel)) =
        some (some (.sensorFault, some .invP)) := by decide

/-- IDLE with every owner's source in class TRIP. -/
def allTrip : State :=
  { idle with cfg := { idle.cfg with trip := { idle.cfg.trip with
      classCoilOver := .trip, classPyro := .trip, classQTemp := .trip } } }

/-- The owners' limits at their boundary values (R86, R87, R105, R108, R132, R133, R150). -/
theorem meets_ConversionsComplete_owners :
    let x := idle.cfg.trip
    (x.iMax, x.tMax, x.qTempLimit, x.waterMin, idle.cfg.quench.flowMin.q1) =
        (4000, 1050, 40, 150, 300) ∧
      (x.classCoilOver, allTrip.cfg.trip.classPyro, allTrip.trip.latch) =
        (.limit, .trip, false) ∧
      ((idle.publish .coilI 4000).power.coilOver, (idle.publish .coilI 4001).power.coilOver) =
        (false, true) ∧
      ((hot.publish .pyro 1031).power.pyroHigh, (hot.publish .pyro 1030).power.pyroHigh) =
        (true, false) ∧
      ((allTrip.publish .qTemp 41).trip.latch, (allTrip.publish .qTemp 40).trip.latch) =
        (true, false) ∧
      ((idle.publish .coilWater 149).trip.coilWaterTimer,
        (idle.publish .coilWater 150).trip.coilWaterTimer) = (true, false) ∧
      (((watching .proved none none).publish .flow1 299).quench.circuit.q1.dropout.isSome,
        ((watching .proved none (some 9)).publish .flow1 300).quench.circuit.q1.dropout) =
        (true, none) := by decide

/-- PYRO_HIGH, QUENCH_TEMP_HIGH and SENSOR_FAULT in class WARN. -/
def warned (s : State) : State :=
  { s with cfg := { s.cfg with trip := { s.cfg.trip with
      classPyro := .warn, classQTemp := .warn, classSensor := .warn } } }

/-- The WARN class: PYRO_HIGH in the body section flags its zone, QUENCH_TEMP_HIGH in PRESTART flags the record, a SENSOR_FAULT flags
and trips nothing; the same fault in the TRIP class latches behind the value it published (R135, R158, log 24). -/
theorem meets_ConversionsComplete_warn :
    (((warned running).publish .pyro 1051).zones.openRec.map fun r =>
        (r.warn, r.zones.map (·.acc.warn))) = some (false, [false, true, false]) ∧
      (((warned running).publish .pyro 1050).zones.openRec.map fun r =>
        (r.warn, r.zones.map (·.acc.warn))) = some (false, [false, false, false]) ∧
      (((warned prestart).publish .qTemp 41).zones.openRec.map fun r =>
        (r.warn, r.zones.map (·.acc.warn))) = some (true, [false, false, false]) ∧
      after (.conversionComplete 0) (warned { flowMissing .fault 0 with zones := running.zones })
        (fun t => (t.trip.latch, t.meas.chan.flow1.sensorFault, t.zones.openRec.map (·.warn))) =
          some (false, true, some true) ∧
      after (.conversionComplete 0) (flowMissing .fault 0) (fun t =>
        t.trip.record.map fun r => (r.cause, r.channel)) =
          some (some (.sensorFault, some .flow1)) := by decide

/-- The last conversion of a burst with a request waiting: the result, and the grant behind it (R114, R117). -/
theorem meets_ConversionsComplete_granted :
    let s : State := { queued with meas := { queued.meas with
      converter := some ⟨.flow2, .sample, 4, 1, 6000, true⟩
      chan := queued.meas.chan.set .flow2 { queued.meas.chan.get .flow2 with lastGood := none } } }
    s.meas.waiting ≠ [] ∧ (s.meas.chan.get .flow2).sensorFault = false ∧
      after (.conversionComplete 2000) s (fun t => (t.meas.converter.map (·.channel), t.meas.waiting)) =
        some (some .flow1, []) := by decide

/-- Supply Ready and its loss in an empty RUNNING (R25, R108). -/
theorem meets_ConversionsComplete_supply :
    let empty_ := ending none [⟨body, .profile, 6⟩] true ⟨.empty, .empty⟩
    let s := { empty_ with seq := { empty_.seq with active := none, stepTimer := none } }
    s.quench.supplyReady = true ∧ s.vacant = true ∧ s.seq.next = none ∧
      onlyMarks s.seq.queue = false ∧
      (idle.cfg.quench.onThreshold, idle.cfg.quench.offThreshold) = (250, 200) ∧
      (s.publish .qPress 200).quench.supplyReady = true ∧
      (s.publish .qPress 199).seq.lastEnd = some .supplyLost ∧
      (idle.publish .qPress 249).quench.supplyReady = false ∧
      (idle.publish .qPress 250).quench.supplyReady = true := by decide

/-- A flood on Q3, and TRIPPING under STOP_FLOOD with the carriage stopped or still moving. -/
def flooding : State :=
  { idle with quench := { idle.quench with
      q3Owner := .flood, floodTimer := some 100, idleTimer := some 300
      circuit := { idle.quench.circuit with q3 := ⟨true, .proved, none, none⟩ } } }
def floodTrip (stopped : Bool) : State :=
  { tripping with
    quench := flooding.quench
    trip := { tripping.trip with response := some .stopFlood, stoppedSeen := stopped } }
def warnFlow (s : State) : State :=
  { s with cfg := { s.cfg with trip := { s.cfg.trip with classFlow := ⟨.warn, .warn, .warn⟩ } } }

theorem meets_QuenchTimers :
    (idle.quench.circuit.get .q1).watch ≠ .proving ∧ (idle.quench.circuit.get .q1).watch ≠ .proved ∧
      (((warnFlow (watching .proving (some 400) none)).quench.circuit.get .q1).watch = .proving ∧
        (warnFlow idle).cfg.trip.classFlow.get .q1 = .warn) ∧
      ((warnFlow (watching .proved none (some 100))).quench.circuit.get .q1).dropout.isSome = true ∧
      idle.quench.floodTimer = none ∧ flooding.quench.floodTimer.isSome = true ∧
      flooding.seq.state ≠ .tripping ∧ flooding.quench.idleDeferred = false ∧
      after .pumpIdleTimerExpiry flooding (·.quench.idleDeferred) = some true ∧
      ((floodTrip true).seq.state = .tripping ∧ (floodTrip true).trip.response = some .stopFlood ∧
        (floodTrip true).trip.stoppedSeen = true ∧ (floodTrip false).trip.stoppedSeen = false) ∧
      after .floodTimerExpiry (floodTrip true) (·.seq.state) = some .tripped ∧
      idle.quench.idleTimer = none ∧ flooding.quench.q3Owner = .flood ∧
      ({ idle.quench with idleTimer := some 300 } : Quench).q3Owner ≠ .flood := by decide

/-- A proving expiry of Q1 in the WARN class in the body section: the zone being heated is flagged WARN, a zone whose extent holds
580,000, Q1's spray position at 600,000, QUENCH_SHORT; one of Q3 in PRESTART flags the record (R107, R135, R158, R159). -/
theorem meets_QuenchTimers_warn :
    let zone (lo hi : Int) : ZoneEntry :=
      ⟨⟨.density, 0, 0⟩, { ZoneAcc.start with extent := some (lo, hi) }⟩
    let s : State := warnFlow { running with
      quench := { running.quench with
        circuit := { running.quench.circuit with q1 := ⟨true, .proving, some 400, none⟩ } }
      zones := { running.zones with openRec := some { record43 with
        zones := [zone 500000 580000, zone 580001 600000, zone 580000 590000] } } }
    let p : State := warnFlow { prestart with
      quench := { prestart.quench with
        circuit := { prestart.quench.circuit with q3 := ⟨true, .proved, none, some 100⟩ } } }
    let flags (t : State) := t.zones.openRec.map fun r =>
      (r.warn, r.zones.map fun e => (e.acc.warn, e.acc.quenchShort))
    after (.provingTimerExpiry .q1) s flags =
        some (some (false, [(false, true), (true, false), (false, true)])) ∧
      after (.dropoutTimerExpiry .q3) p flags =
        some (some (true, [(false, false), (false, false), (false, false)])) := by decide

theorem meets_InputsWithoutRaise : idle.power.enable = false ∧ idle.trip.coilWaterTimer = false ∧
    idle.travel.lowCount ≠ 100 ∧
    after (.readyInputChange true) prestart (·.power.readySeen) = some true := by decide

/-- The carriage has stopped in each state that waits for it. -/
def stoppedIn (st : SeqState) : State := halted (at_ st idle)
def stoppedTurn : State :=
  halted { running with seq := { running.seq with active := none, turnPhase := .stopping } }

theorem meets_StoppedReports :
    (let s := stoppedIn .homing;
      s.travel.mode = .stopping ∧ s.travel.planSpeed = 0 ∧ s.travel.still = 20 ∧
        s.seq.state = .homing ∧ s.travel.switchFound = false) ∧
    (let s := { stoppedIn .homing with travel := { (stoppedIn .homing).travel with switchFound := true } };
      s.travel.still = 20 ∧ s.travel.switchFound = true) ∧
    (stoppedIn .positioning).seq.state = .positioning ∧ ¬(idle.travel.mode = .stopping) ∧
    (stoppedTurn.travel.still = 20 ∧ stoppedTurn.seq.state = .running ∧
      stoppedTurn.seq.turnPhase = .stopping ∧ stoppedTurn.seq.next = some splineNext) ∧
    (drained.travel.mode = .stopping ∧ drained.travel.still = 20 ∧ drained.seq.state = .runout ∧
      drained.quench.trailsEmpty = true ∧ drained.zones.openRec = some record43) ∧
    ((halted tripping).seq.state = .tripping ∧ (halted tripping).trip.response = some .stop) := by decide

/-- TRIPPING under a response, the carriage stopped. -/
def under (r : Response) (flood : Bool) (tr : PerRing Trail) : State :=
  halted { tripping with
    trip := { tripping.trip with response := some r, floodSeen := flood }
    quench := { tripping.quench with trail := tr } }

/-- STOPPED under each response: STOP, RUNOUT with empty trails and STOP_FLOOD with its flood complete reach TRIPPED and close the
record; STOP_FLOOD before that waits; a run-out and a RUNOUT response with an entry left drain it (R46, R140 to R142, R144). -/
theorem meets_StoppedReports_responses :
    [under .stop false ⟨.empty, .empty⟩, under .runout false ⟨.empty, .empty⟩,
      under .stopFlood true ⟨.empty, .empty⟩, under .stopFlood false ⟨.empty, .empty⟩,
      under .runout false running.quench.trail,
      { drained with quench := { drained.quench with trail := running.quench.trail } }].map
        (fun s => after .stoppingComplete s fun t =>
          (t.seq.state, t.travel.mode, t.zones.closed.length, t.trip.stoppedSeen)) =
      [some (.tripped, .hold, 1, true), some (.tripped, .hold, 1, true),
        some (.tripped, .hold, 1, true), some (.tripping, .hold, 0, true),
        some (.tripping, .drain, 0, false), some (.runout, .drain, 0, false)] ∧
      tripping.seq.passDir = some .forward ∧ drained.seq.passDir = some .forward := by decide

/-- A carriage standing at its target of 5,000, one back at the start of a turn, and one stopped before a turn. -/
def atTarget : State :=
  { at_ .positioning idle with travel := { idle.travel with
      mode := .target, stopPoint := some 5000, position := 5000, plan := 5000000, arrivalSeen := true } }
def back : State :=
  { returning with
    travel := { returning.travel with
      planSpeed := 0, still := 20, stopPoint := some 900000, plan := 900000000 } }
def turning : State :=
  { drained with
    seq := { running.seq with active := none, next := some { splineNext with turn := true } } }

theorem meets_ArrivalsAndTurns :
    (atTarget.travel.arrivalSeen = true ∧ atTarget.seq.state = .positioning ∧
      atTarget.travel.mode = .target ∧ atTarget.travel.stopPoint = some 5000) ∧
    idle.travel.arrivalSeen = false ∧
    (back.seq.state = .running ∧ back.seq.turnPhase = .return ∧ back.travel.mode = .target ∧
      back.travel.planSpeed = 0 ∧ back.travel.still = 20 ∧ back.travel.stopPoint = some 900000 ∧
      back.travel.plan = 900000 * 1000 ∧ back.seq.next = some splineNext ∧ HasTrailRoom back) ∧
    idle.seq.turnPhase ≠ .return ∧
    (turning.seq.state = .running ∧ turning.seq.active = none ∧ turning.seq.turnPhase = .none ∧
      turning.seq.next = some { splineNext with turn := true } ∧
      turning.quench.trailsEmpty = true ∧ turning.travel.still = 20) ∧ idle.seq.next = none :=
  ⟨by decide, by decide, ⟨by decide, by decide, by decide, by decide, by decide, by decide, by decide,
    by decide, by decide, by decide⟩, by decide, by decide, by decide⟩

/-- Each of the three events one condition short of due. -/
theorem meets_ArrivalsAndTurns_early :
    ({ atTarget.travel with mode := .hold } : Travel).mode ≠ .target ∧
      (let s := { back with travel := { back.travel with plan := 899999999 } };
        s.seq.turnPhase = .return ∧ s.travel.stopPoint = some 900000 ∧
          s.travel.plan ≠ 900000 * 1000 ∧ exec .returned s = .next s) ∧
      (let s := { back with travel := { back.travel with still := 19 } };
        exec .returned s = .next s) ∧
      (let s := { turning with seq := { turning.seq with active := some bodyActive } };
        s.seq.active ≠ none ∧ exec .turnStoppedActivation s = .next s) ∧
      (let s := { turning with seq := { turning.seq with next := some splineNext } };
        splineNext.turn = false ∧ exec .turnStoppedActivation s = .next s) :=
  ⟨by decide, ⟨by decide, by decide, by decide, rfl⟩, rfl, ⟨by decide, rfl⟩, by decide, rfl⟩

/-- PRESTART with everything ready, the spindle 10 % below its command of 120; with and without a step in Next. -/
def ready (next : Option Admitted) : State :=
  { prestart with
    seq := { prestart.seq with next := next }
    travel := { prestart.travel with spindleCommand := 120, rpm := 108 }
    quench := { prestart.quench with supplyReady := true }
    inputs := { prestart.inputs with ready := true } }

theorem meets_EntersRunning :
    ((ready none).seq.state = .prestart ∧ (ready none).quench.supplyReady = true ∧
      (ready none).inputs.ready = true ∧
      ((ready none).travel.spindleCommand = 0 ∨
        (((ready none).travel.rpm : Int) - (ready none).travel.spindleCommand).natAbs * 10 ≤
          (ready none).travel.spindleCommand)) ∧
    ((ready (some dwellActive)).seq.next = some dwellActive ∧ dwellActive.turn = false ∧
      HasTrailRoom (ready (some dwellActive))) ∧
    ((ready none).seq.next = none ∧ (ready none).seq.programEnd = false ∧
      (ready none).travel.mode = .hold) ∧ prestart.quench.supplyReady = false :=
  ⟨by decide, ⟨by decide, by decide, by decide, by decide⟩, by decide, by decide⟩

/-- A program at its end enters RUNNING and leaves it with COMPLETE (R25, R45). -/
def spent : State := { ready none with seq := { (ready none).seq with programEnd := true } }

theorem spent_trails : TrailInv spent := by intro r; cases r <;> decide

theorem meets_EntersRunning_complete : spent.seq.programEnd = true ∧ spent.seq.active = none ∧
    spent.seq.turnPhase = .none ∧ (∀ q ∈ spent.seq.queue, q.step.isMark = true) ∧ TrailInv spent ∧
    HasTrailRoom spent ∧ after .enterRunning spent (·.seq.lastEnd) = some (some .complete) :=
  ⟨by decide, by decide, by decide, nofun, spent_trails, ⟨by decide, by decide⟩, by decide⟩

/-- PRESTART with a MARK and a step waiting; RUNNING with a step whose zone the profile has not. -/
def holds (steps : List ScanStep) (s : State) : State :=
  { s with seq := { s.seq with next := none, queue := steps.map (⟨·, .link, 0⟩) } }
def bad : ScanStep := .dwell 100 10 3 none

theorem bad_trails : TrailInv (holds [bad] running) := by intro r; cases r <;> decide

theorem meets_AdmissionFillsNext :
    prestart.quench.supplyReady = false ∧
      (let s := holds [.mark 1, dwell] (ready none);
        s.seq.state = .prestart ∧ s.seq.next = none ∧ s.quench.supplyReady = true ∧
          firstNonMark s.seq.queue = some (⟨dwell, .link, 0⟩, []) ∧ dwell.isSource = false ∧
          dwell.isMotion = false ∧ dwell.zone? = some 0 ∧ 0 < s.seq.zoneCount ∧ s.vacant = false) ∧
      (let s := holds [bad] (ready none);
        s.seq.state = .prestart ∧ firstNonMark s.seq.queue = some (⟨bad, .link, 0⟩, []) ∧
          bad.zone? = some 3 ∧ ¬3 < s.seq.zoneCount ∧ s.zones.openRec.isSome = true) ∧
      QueueInv (holds [bad] (ready none)) ∧
      ((holds [bad] running).seq.state = .running ∧ (holds [bad] running).quench.supplyReady = true ∧
        ¬3 < (holds [bad] running).seq.zoneCount ∧ TrailInv (holds [bad] running) ∧
        HasTrailRoom (holds [bad] running)) := by
  refine ⟨by decide, by decide, by decide, ?_, by decide, by decide, by decide, bad_trails, by decide,
    by decide⟩
  unfold QueueInv
  decide

/-- PRESTART of the profile on page 4, its loader at an index; the second page has a SPLICE first. -/
def loading (index : Nat) : State :=
  let s := withPage .written prestart
  { s with seq := { s.seq with source := .profile, loader := some ⟨4, index, .running⟩ } }
def spliced : State :=
  let s := loading 0
  let p := { axlePage .written with slots := some (.splice 7) :: (axlePage .written).slots.tail }
  { s with store := { s.store with pages := s.store.pages.set 4 p } }

theorem no_source (s : State) (step : ScanStep) (i : Nat) (h : s.seq.queue = [])
    (hs : step.isMark = false) (hn : step.isSource = false) (q : QStep) (rest : List QStep)
    (e : firstNonMark (s.seq.queue ++ [⟨step, .profile, i⟩]) = some (q, rest)) :
    q.step.isSource = false := by
  rw [h] at e
  simp only [List.nil_append, firstNonMark, hs] at e
  cases e
  exact hn

theorem meets_LoaderAndSourceSteps :
    (prestart.seq.loader = none ∧
      ∀ l, ({ (loading 1).seq with loader := some ⟨4, 1, .atSplice⟩ } : Seq).loader = some l →
        l.state ≠ .running) ∧
      ((loading 0).seq.loader = some ⟨4, 0, .running⟩ ∧ (loading 0).seq.queue.length < 32 ∧
        (loading 0).store.stepAt 4 0 = some dwell ∧ (loading 0).vacant = false ∧
        0 + 1 ≠ (loading 0).store.stepCount 4) ∧
      ((loading 1).store.stepAt 4 1 = some body ∧ 1 + 1 = (loading 1).store.stepCount 4) ∧
      (∀ q rest, firstNonMark ((loading 1).seq.queue ++ [⟨body, .profile, 1⟩]) = some (q, rest) →
        q.step.isSource = false) ∧
      (spliced.store.stepAt 4 0 = some (.splice 7) ∧ (∀ q ∈ spliced.seq.queue, q.step.isMark = true) ∧
        after .loaderAppend spliced (fun t => (t.seq.source, t.seq.segKind, t.seq.queue)) =
          some (.link, some .splice, [])) ∧
      exec .loaderAppend { loading 1 with seq := { (loading 1).seq with
        loader := some ⟨4, 2, .exhausted⟩ } } = .next { loading 1 with seq := { (loading 1).seq with
        loader := some ⟨4, 2, .exhausted⟩ } } :=
  ⟨⟨by decide, by intro l h; cases h; decide⟩, by decide, by decide,
    no_source (loading 1) body 1 rfl rfl rfl, ⟨by decide, nofun, by decide +kernel⟩, rfl⟩

/-- RUNNING with nothing admitted: what the loader or the link adds is all there is. -/
def vacant (source : StepSource) (kind : Option SegKind) (supply : Bool) (loader : Option Loader)
    (slots : List (Option ScanStep)) : State :=
  let s := withPage .written (quiet running)
  let p := { axlePage .written with slots := slots, header := some ⟨0, 1, 3, 1⟩ }
  { s with
    seq := { s.seq with
      active := none, next := none, queue := [], source := source, segKind := kind, loader := loader
      programEnd := false, stepTimer := none }
    quench := { s.quench with supplyReady := supply, trail := ⟨.empty, .empty⟩ }
    store := { s.store with pages := s.store.pages.set 4 p } }

def lone (step : ScanStep) (supply : Bool) : State :=
  vacant .profile none supply (some ⟨4, 0, .running⟩) [some step]

theorem vacant_trails (source : StepSource) (kind : Option SegKind) (supply : Bool)
    (loader : Option Loader) (slots : List (Option ScanStep)) :
    TrailInv (vacant source kind supply loader slots) := by
  intro r; cases r <;> exact ⟨Nat.zero_le _, rfl⟩

/-- An empty RUNNING: a step without Supply Ready and a last MARK from the loader; END and a step without Supply Ready from the link
(R25, R45). -/
theorem meets_LoaderAndSourceSteps_vacant :
    ((lone dwell false).vacant = true ∧ (lone dwell false).seq.next = none ∧
      (lone dwell false).store.stepAt 4 0 = some dwell ∧ HasTrailRoom (lone dwell false) ∧
      after .loaderAppend (lone dwell false) (·.seq.lastEnd) = some (some .supplyLost)) ∧
    ((lone (.mark 5) true).store.stepAt 4 0 = some (.mark 5) ∧
      0 + 1 = (lone (.mark 5) true).store.stepCount 4 ∧
      after .loaderAppend (lone (.mark 5) true) (·.seq.lastEnd) = some (some .complete)) ∧
    (let s := vacant .link (some .stream) true none [];
      Taken s 1#8 ∧ s.seq.source = .link ∧ s.seq.segClosed = false ∧ s.vacant = true ∧
        TrailInv s ∧ ScanStep.ofRecord ⟨9, 0, 0, 0, 0, 0, 0, 0⟩ = some .finish ∧
        after (.step 1#8 ⟨9, 0, 0, 0, 0, 0, 0, 0⟩) s (·.seq.lastEnd) = some (some .complete)) ∧
    (let s := vacant .link (some .stream) false none [];
      s.quench.supplyReady = false ∧ spline.isSource = false ∧ spline.isMark = false ∧
        after (.step 1#8 ⟨2, 2, 0, 0, 960000, 1000, 65535, 4000⟩) s (·.seq.lastEnd) =
          some (some .supplyLost)) :=
  ⟨⟨by decide, by decide, by decide +kernel, ⟨by decide, by decide⟩, by decide +kernel⟩, by decide +kernel,
    ⟨taken _ (by decide), by decide, by decide, by decide, vacant_trails _ _ _ _ _, by decide,
      by decide⟩, by decide⟩

/-- RESUME closes a splice segment and the loader goes on; END in a stream leaves the program at its end (R29, R38). -/
theorem meets_LoaderAndSourceSteps_link :
    (let s := { splice with seq := { splice.seq with loader := some ⟨4, 1, .atSplice⟩ } };
      Taken s 1#8 ∧ s.seq.segKind = some .splice ∧ s.vacant = false ∧
        ScanStep.ofRecord ⟨8, 0, 0, 0, 0, 0, 0, 0⟩ = some .resume ∧
        after (.step 1#8 ⟨8, 0, 0, 0, 0, 0, 0, 0⟩) (withPage .written s) (fun t =>
          (t.seq.source, t.seq.loader, t.seq.queue)) =
          some (.profile, some ⟨4, 1, .running⟩, [])) ∧
    after (.step 1#8 ⟨9, 0, 0, 0, 0, 0, 0, 0⟩) (stream 0) (fun t =>
      (t.seq.programEnd, t.seq.segClosed, t.seq.queue)) = some (true, true, []) :=
  ⟨⟨taken _ (by decide), by decide, by decide, by decide, by decide +kernel⟩, by decide⟩

/-- A SPLICE behind the admitted step acts; an empty RUNNING takes a step at once, a turn step drains first (R25, R29, R38, R43). -/
theorem meets_AdmissionFillsNext_head :
    (let s := holds [dwell, .mark 2, .splice 7] (ready none);
      firstNonMark s.seq.queue = some (⟨dwell, .link, 0⟩, [⟨.mark 2, .link, 0⟩, ⟨.splice 7, .link, 0⟩]) ∧
        s.vacant = false ∧ after .admission s (fun t => (t.seq.queue, t.seq.segKind)) =
          some ([⟨.mark 2, .link, 0⟩], some .splice)) ∧
    (let s := holds [dwell] (vacant .link (some .stream) true none []);
      s.vacant = true ∧ HasTrailRoom s ∧ dwell.zone? = some 0 ∧ 0 < s.seq.zoneCount ∧
        after .admission s (fun t => (t.seq.active.map (·.step), t.seq.next)) =
          some (some dwell, none)) ∧
    (let s := holds [dwell, .mark 2, .splice 7] (vacant .link (some .stream) true none []);
      s.vacant = true ∧ after .admission s (fun t =>
        (t.seq.active.map (·.step), t.seq.queue, t.seq.segKind)) =
          some (some dwell, [⟨.mark 2, .link, 0⟩], some .splice)) ∧
    (let s := holds [.move 100000 2000 .keep .keep] (vacant .link (some .stream) true none []);
      s.seq.nominal = 960000 ∧ s.seq.passDir = some .forward ∧ s.cfg.machine.softLow ≤ 100000 ∧
        after .admission s (fun t => (t.seq.active, t.seq.next.map (·.turn), t.seq.turnPhase)) =
          some (none, some true, .none)) :=
  ⟨by decide, ⟨by decide, ⟨by decide, by decide⟩, by decide⟩, by decide, by decide⟩

end Sys2Proof.Tests
end

namespace Sys2Proof.Machine

/-! ### Ranges of the step record's fields (R2, R15, R197) -/

theorem inRange_iff (lo hi x : Int) : inRange lo hi x = true ↔ lo ≤ x ∧ x ≤ hi := by
  simp [inRange]

theorem endInRange_iff (p : Int) : endInRange p = true ↔ -100000 ≤ p ∧ p ≤ 2500000 :=
  inRange_iff _ _ _

theorem quenchOf_isSome (n : Nat) : (quenchOf n).isSome = true ↔ n < 9 := by
  unfold quenchOf
  split <;> simp_all

theorem spinOf_isSome (n : Nat) : (spinOf n).isSome = true ↔ n = 65535 ∨ n ≤ 600 := by
  unfold spinOf
  split_ifs <;> simp_all

/-! ### A step record is legal by its kind's fields alone (R15) -/

theorem ScanStep.ofRecord_move (r : StepRecord) (h : r.kind = 1) :
    (ScanStep.ofRecord r).isSome = true ↔
      (quenchOf r.quench).isSome = true ∧ endInRange r.endPos = true ∧
        inRange 100 30000 r.speed = true := by
  unfold ScanStep.ofRecord
  rw [h]
  cases quenchOf r.quench <;> simp

theorem ScanStep.ofRecord_heat (r : StepRecord) (h : r.kind = 2) :
    (ScanStep.ofRecord r).isSome = true ↔
      (quenchOf r.quench).isSome = true ∧ (spinOf r.spin).isSome = true ∧
        endInRange r.endPos = true ∧ inRange 10 15000 r.speed = true ∧
        inRange 100 100000 r.last = true ∧ r.zone ≤ 15 := by
  unfold ScanStep.ofRecord
  rw [h]
  cases quenchOf r.quench <;> cases spinOf r.spin <;> simp [and_assoc]

theorem ScanStep.ofRecord_dwell (r : StepRecord) (h : r.kind = 3) :
    (ScanStep.ofRecord r).isSome = true ↔
      (spinOf r.spin).isSome = true ∧ inRange 1 6000 r.last = true ∧
        inRange 1 6000 r.speed = true ∧ r.zone ≤ 15 := by
  unfold ScanStep.ofRecord
  rw [h]
  cases spinOf r.spin <;> simp [and_assoc]

theorem ScanStep.ofRecord_timed (r : StepRecord) (h : r.kind = 4 ∨ r.kind = 5) :
    (ScanStep.ofRecord r).isSome = true ↔ inRange 1 6000 r.last = true := by
  unfold ScanStep.ofRecord
  rcases h with h | h <;> rw [h] <;> simp

theorem ScanStep.ofRecord_numbered (r : StepRecord) (h : r.kind = 6 ∨ r.kind = 7) :
    (ScanStep.ofRecord r).isSome = true ↔ r.number ≤ 255 := by
  unfold ScanStep.ofRecord
  rcases h with h | h <;> rw [h] <;> simp

theorem ScanStep.ofRecord_bare (r : StepRecord) (h : r.kind = 8 ∨ r.kind = 9) :
    (ScanStep.ofRecord r).isSome = true := by
  unfold ScanStep.ofRecord
  rcases h with h | h <;> rw [h] <;> rfl

theorem ScanStep.ofRecord_unknown (r : StepRecord) (h : r.kind = 0 ∨ 9 < r.kind) :
    ScanStep.ofRecord r = none := by
  rcases h with h | h
  · unfold ScanStep.ofRecord
    rw [h]
    rfl
  · obtain ⟨n, hn⟩ := Nat.exists_eq_add_of_lt h
    have hk : r.kind = n + 10 := by omega
    unfold ScanStep.ofRecord
    rw [hk]
    rfl

/-- Settles O30: each kind's lemma, with the ranges of its fields written out. -/
theorem stepRecordRanges : Obligations.StepRecordRanges := by
  intro r
  refine ⟨fun h => ?_, fun h => ?_, fun h => ?_, fun h => ?_, ScanStep.ofRecord_numbered r,
    ScanStep.ofRecord_bare r, fun h => ?_⟩
  · rw [ScanStep.ofRecord_move r h, quenchOf_isSome, endInRange_iff, inRange_iff]
    omega
  · rw [ScanStep.ofRecord_heat r h, quenchOf_isSome, spinOf_isSome, endInRange_iff, inRange_iff,
      inRange_iff]
    omega
  · rw [ScanStep.ofRecord_dwell r h, spinOf_isSome, inRange_iff, inRange_iff]
    omega
  · rw [ScanStep.ofRecord_timed r h, inRange_iff]
    omega
  · simp [ScanStep.ofRecord_unknown r h]

end Sys2Proof.Machine

namespace Sys2Proof.Machine

/-! ### TRIM (R40, R41, R58) -/

/-- The answer to a TRIM of a legal method (R40). -/
theorem State.trimAnswer_legal (s : State) (t sp m : Nat) (k : TrimMethod)
    (h : methodOf m = some k) :
    s.trimAnswer t sp m =
      if clampT t ≠ t ∨ clampS sp ≠ sp then .clamped
      else if s.seq.shadow.isSome then .replaced else .ok := by
  unfold State.trimAnswer
  rw [h]
  rfl

theorem State.serveTrim_legal (s : State) (tag : Byte) (t sp m : Nat) (k : TrimMethod)
    (h : methodOf m = some k) :
    s.serveTrim tag t sp m = (s.answer 0x0A#8 tag (s.trimAnswer t sp m, [])).trimEffect t sp k := by
  unfold State.serveTrim
  rw [h]

theorem State.serveTrim_illegal (s : State) (tag : Byte) (t sp m : Nat) (h : methodOf m = none) :
    s.serveTrim tag t sp m = s.replied 0x8A#8 tag .invalid [] := by
  unfold State.serveTrim State.trimAnswer
  rw [h]
  rfl

theorem methodOf_illegal (m : Nat) (h : m = 0 ∨ 3 < m) : methodOf m = none := by
  unfold methodOf
  rw [if_neg (by omega), if_neg (by omega), if_neg (by omega)]

/-- Without an Active HEAT step an IMMEDIATE transfer changes no speed (R41). -/
theorem State.retrim_other (s : State)
    (h : ∀ a, s.seq.active = some a → ∀ p v e z x y f, a.step ≠ .heat p v e z x y f) :
    s.retrim = s := by
  unfold State.retrim
  split
  · rename_i a ha
    split
    · rename_i hs
      exact absurd hs (h a ha _ _ _ _ _ _ _)
    · rfl
  · rfl

/-- An Active HEAT step scans on at its new trimmed speed (R41, R58). -/
theorem State.retrim_heat (s : State) (a : Admitted) (p : Int) (v e z : Nat) (x y : QSetting)
    (f : Option Nat) (ha : s.seq.active = some a) (hs : a.step = .heat p v e z x y f)
    (hm : s.travel.mode = .scan) :
    s.retrim = { s with
      seq := { s.seq with heatSpeed := some (trimmedSpeed v s.seq.trimS) }
      travel := { s.travel with targetSpeed := trimmedSpeed v s.seq.trimS } } := by
  simp only [State.retrim, ha, hs, State.onSeq, State.onTravel, hm, if_true]

/-- Settles O32: the answer by the method, then the transfer and the Active step of an IMMEDIATE. -/
theorem trimWritesShadow : Obligations.TrimWritesShadow := by
  intro tag s t sp m taken ct cs code l
  have legal : ∀ k, methodOf m = some k →
      exec (.trim tag t sp m) s = .next (State.trimEffect { s with link := l } t sp k) := fun k hk => by
    rw [exec_trim_taken t sp m taken, s.serveTrim_legal tag t sp m k hk,
      s.trimAnswer_legal t sp m k hk]
    rfl
  refine ⟨fun h => ?_, fun h => ?_, fun h => ?_, fun h hn => ?_, fun a p v e z x y f h ha hs hm => ?_⟩
  · rw [exec_trim_taken t sp m taken, s.serveTrim_illegal tag t sp m (methodOf_illegal m h)]
  · subst h
    exact legal .step rfl
  · subst h
    exact legal .zone rfl
  · subst h
    rw [legal .immediate rfl]
    exact congrArg Host.Outcome.next (State.retrim_other _ hn)
  · subst h
    rw [legal .immediate rfl]
    exact congrArg Host.Outcome.next (State.retrim_heat _ a p v e z x y f ha hs hm)

/-! ### The refusals of START (R23) -/

/-- A START that is not answered OK is only answered (R23). -/
theorem State.serveStartProfile_refused (s : State) (tag : Byte) (page : Nat) (part : Tag8)
    (c : ResultCode) (hc : s.startAnswer (s.profileCheck page) = c) (hn : c ≠ .ok) :
    s.serveStartProfile tag page part = s.replied 0x87#8 tag c [] := by
  unfold State.serveStartProfile State.startReply
  simp only [hc, if_neg hn]
  rfl

theorem State.serveStartStream_refused (s : State) (tag : Byte) (part : Tag8)
    (ws : List WindowRecord) (c : ResultCode) (hc : s.startAnswer (streamCheck ws) = c)
    (hn : c ≠ .ok) : s.serveStartStream tag part ws = s.replied 0x88#8 tag c [] := by
  unfold State.serveStartStream State.startReply
  simp only [hc, if_neg hn]
  rfl

/-- The first two checks, and the last two in IDLE (R23). -/
theorem State.startAnswer_unreferenced (s : State) (third : Option ResultCode)
    (h : s.seq.state = .unreferenced) : s.startAnswer third = .notHomed := if_pos h

theorem State.startAnswer_busy (s : State) (third : Option ResultCode)
    (h : s.seq.state ≠ .unreferenced) (h' : s.seq.state ≠ .idle) : s.startAnswer third = .state := by
  unfold State.startAnswer
  rw [if_neg h, if_pos h']

theorem State.startAnswer_idle (s : State) (third : Option ResultCode) (h : s.seq.state = .idle) :
    s.startAnswer third = third.getD (if 8 ≤ s.zones.count then .recordsFull else .ok) := by
  unfold State.startAnswer
  rw [if_neg (by rw [h]; decide), if_neg (fun hn => hn h)]
  cases third <;> rfl

theorem State.profileCheck_eq (s : State) (page : Nat) :
    s.profileCheck page =
      if page < 16 ∧ (s.store.page page).state = .written ∧ (s.store.page page).owner = some page
      then none else some .notFound := by
  unfold State.profileCheck Store.isWrittenFirst
  by_cases h : page < 16 <;> simp [pageCount, h]

/-- The windows of a list are read when each is legal. -/
theorem mapM_ofRecord_isSome (ws : List WindowRecord) :
    (ws.mapM Window.ofRecord).isSome = true ↔ ∀ w ∈ ws, (Window.ofRecord w).isSome = true := by
  induction ws with
  | nil => simp
  | cons w ws ih =>
    rw [List.mapM_cons, List.forall_mem_cons, ← ih]
    cases Window.ofRecord w <;> cases ws.mapM Window.ofRecord <;> simp

theorem streamCheck_eq (ws : List WindowRecord) :
    streamCheck ws =
      if 1 ≤ ws.length ∧ ws.length ≤ 16 ∧ ∀ w ∈ ws, (Window.ofRecord w).isSome = true
      then none else some .invalid := by
  unfold streamCheck windowsOf
  simp only [← mapM_ofRecord_isSome]
  by_cases h1 : 1 ≤ ws.length <;> by_cases h2 : ws.length ≤ 16 <;> simp [h1, h2, zonePlaces]

/-! ### The checks of STEP (R15, R16, R37) -/

theorem State.serveStep_refused (s : State) (tag : Byte) (r : StepRecord) (c : ResultCode)
    (hc : s.stepAnswer r = (c, [])) (hn : c ≠ .ok) :
    s.serveStep tag r = s.replied 0x89#8 tag c [] := by
  unfold State.serveStep
  rw [hc]
  simp only [if_neg hn]
  split <;> rfl

/-- A step out of its place in the link segment is no legal STEP (R16). -/
theorem Seq.linkStep_none (q : Seq) (r : StepRecord)
    (h : ScanStep.ofRecord r = none ∨ q.segClosed = true ∨
      (∃ n, ScanStep.ofRecord r = some (.splice n)) ∨
      (ScanStep.ofRecord r = some .resume ∧ q.segKind ≠ some .splice) ∨
      (ScanStep.ofRecord r = some .finish ∧ q.segKind ≠ some .stream)) : q.linkStep r = none := by
  unfold Seq.linkStep Seq.inPlace
  rcases h with h | h | ⟨n, h⟩ | ⟨h, hk⟩ | ⟨h, hk⟩
  · rw [h]; rfl
  · cases ScanStep.ofRecord r <;> simp [h]
  · simp [h, Option.filter]
  · simp [h, hk, Option.filter]
  · simp [h, hk, Option.filter]

/-- A step in its place is the STEP's step (R16). -/
theorem Seq.linkStep_some (q : Seq) (r : StepRecord) (step : ScanStep)
    (h : ScanStep.ofRecord r = some step) (ho : q.segClosed = false) (hn : ∀ n, step ≠ .splice n)
    (hr : step = .resume → q.segKind = some .splice)
    (hf : step = .finish → q.segKind = some .stream) : q.linkStep r = some step := by
  unfold Seq.linkStep Seq.inPlace
  cases step
  case splice n => exact absurd rfl (hn n)
  case resume => simp [h, ho, hr rfl, Option.filter]
  case finish => simp [h, ho, hf rfl, Option.filter]
  all_goals simp [h, ho, Option.filter]

/-- Settles O29: each refusal is the answer alone, and the answers follow the order of the checks. -/
theorem startsAndStepsRefusedInOrder : Obligations.StartsAndStepsRefusedInOrder := by
  refine ⟨fun tag s part page ws taken => ?_, fun tag s r taken => ?_⟩
  · intro first legal p l
    have refuseP : ∀ c, s.startAnswer (s.profileCheck page) = c → c ≠ .ok →
        exec p s = .next (s.replied 0x87#8 tag c []) := fun c hc hn => by
      rw [exec_startProfile_taken page part taken, s.serveStartProfile_refused tag page part c hc hn]
    have refuseL : ∀ c, s.startAnswer (streamCheck ws) = c → c ≠ .ok →
        exec l s = .next (s.replied 0x88#8 tag c []) := fun c hc hn => by
      rw [exec_startStream_taken part ws taken, s.serveStartStream_refused tag part ws c hc hn]
    refine ⟨fun h => ?_, fun h h' => ?_, fun h => ⟨fun hf => ?_, fun hl => ?_, fun hf h8 => ?_,
      fun hl h8 => ?_⟩⟩
    · exact ⟨refuseP _ (s.startAnswer_unreferenced _ h) (by decide),
        refuseL _ (s.startAnswer_unreferenced _ h) (by decide)⟩
    · exact ⟨refuseP _ (s.startAnswer_busy _ h h') (by decide),
        refuseL _ (s.startAnswer_busy _ h h') (by decide)⟩
    · refine refuseP _ ?_ (by decide)
      rw [s.startAnswer_idle _ h, s.profileCheck_eq, if_neg hf]
      rfl
    · refine refuseL _ ?_ (by decide)
      rw [s.startAnswer_idle _ h, streamCheck_eq, if_neg hl]
      rfl
    · refine refuseP _ ?_ (by decide)
      rw [s.startAnswer_idle _ h, s.profileCheck_eq, if_pos hf, if_pos h8]
      rfl
    · refine refuseL _ ?_ (by decide)
      rw [s.startAnswer_idle _ h, streamCheck_eq, if_pos hl, if_pos h8]
      rfl
  · have refuse : ∀ c, s.stepAnswer r = (c, []) → c ≠ .ok →
        exec (.step tag r) s = .next (s.replied 0x89#8 tag c []) := fun c hc hn => by
      rw [exec_step_taken r taken, s.serveStep_refused tag r c hc hn]
    unfold State.stepAnswer queueCap at refuse
    refine ⟨fun h => ?_, fun h h32 => ?_, fun h h32 hbad => ?_⟩
    · exact refuse _ (if_pos h) (by decide)
    · refine refuse _ ?_ (by decide)
      rw [if_neg (fun hn => hn h), if_pos h32]
    · refine refuse _ ?_ (by decide)
      rw [if_neg (fun hn => hn h), if_neg (by omega), s.seq.linkStep_none r hbad]
      rfl

end Sys2Proof.Machine

namespace Sys2Proof.Machine

/-! ### An empty RUNNING and a queue of marks (R25, R29) -/

theorem onlyMarks_iff (q : List QStep) : onlyMarks q = true ↔ ∀ x ∈ q, x.step.isMark = true := by
  unfold onlyMarks
  exact List.all_eq_true

theorem onlyMarks_false_iff (q : List QStep) :
    onlyMarks q = false ↔ ∃ x ∈ q, x.step.isMark = false := by
  unfold onlyMarks
  simp

theorem State.vacant_iff (s : State) :
    s.vacant = true ↔ s.seq.state = .running ∧ s.seq.active = none ∧ s.seq.turnPhase = .none := by
  simp [State.vacant, and_assoc]

/-- An empty RUNNING whose program is at its end (R25). -/
theorem State.vacantCheck_complete (s : State) (hv : s.vacant = true) (hn : s.seq.next = none)
    (hm : onlyMarks s.seq.queue = true) (hp : s.seq.programEnd = true) :
    s.vacantCheck = s.runoutEntry .complete none := by
  simp [State.vacantCheck, hv, hn, hm, hp]

/-- An empty RUNNING with a step waiting and the supply lost (R25). -/
theorem State.vacantCheck_lost (s : State) (hv : s.vacant = true) (hn : s.seq.next = none)
    (hm : onlyMarks s.seq.queue = false) (hr : s.quench.supplyReady = false) :
    s.vacantCheck = s.runoutEntry .supplyLost none := by
  simp [State.vacantCheck, hv, hn, hm, hr]

/-- An empty RUNNING waits while its program is not at its end and the supply is there (R25). -/
theorem State.vacantCheck_waits (s : State) (hr : s.quench.supplyReady = true)
    (hm : s.seq.programEnd = false ∨ onlyMarks s.seq.queue = false) : s.vacantCheck = s := by
  unfold State.vacantCheck
  rcases hm with h | h <;> simp [h, hr]

/-- A source step acts on the queue, the source and the loader, and leaves the rest of the Sequencer and the other blocks (R38). -/
theorem State.sourced_same (s : State) (kept : List QStep) (step : ScanStep) :
    (s.sourced kept step).seq.next = s.seq.next ∧ (s.sourced kept step).vacant = s.vacant ∧
      (s.sourced kept step).quench = s.quench := by
  cases step <;> exact ⟨rfl, rfl, rfl⟩

/-! ### STEP accepted (R16, R24, R37, R39) -/

/-- A step that closes a segment is RESUME or END (R16). -/
theorem ScanStep.closes_iff (step : ScanStep) :
    step.closes = true ↔ step = .resume ∨ step = .finish := by
  cases step <;> simp [ScanStep.closes]

/-- A step that is no source step closes no segment (R16, R29). -/
theorem ScanStep.closes_of_plain (step : ScanStep) (h : step.isSource = false) :
    step.closes = false := by
  by_contra hc
  rcases (ScanStep.closes_iff step).1 (Bool.not_eq_false _ ▸ hc) with rfl | rfl <;> cases h

/-- A STEP that passes its checks is answered with its link index and accepted (R37). -/
theorem State.serveStep_accepted (s : State) (tag : Byte) (r : StepRecord) (step : ScanStep)
    (hl : s.seq.source = .link) (hq : s.seq.queue.length < 32)
    (hs : s.seq.linkStep r = some step) :
    s.serveStep tag r =
      State.acceptStep
        { s with link := s.link.placeReply ⟨0x89#8, tag, .ok, be2 s.seq.linkCount⟩ } step := by
  have ha : s.stepAnswer r = (.ok, be2 s.seq.linkCount) := by
    unfold State.stepAnswer queueCap
    rw [if_neg (fun hn => hn hl), if_neg (by omega), hs]
    rfl
  unfold State.serveStep
  rw [ha, hs]
  rfl

/-- The flow state after a STEP has joined the queue (R39). -/
theorem State.flowStep_eq (s : State) (step : ScanStep) :
    s.flowStep step = { s with
      seq := { s.seq with
        flow := if step.closes = true then .flowing
          else if s.seq.flow = .held ∨ s.cfg.flow.high ≤ s.seq.queue.length then .held
          else .flowing }
      link := if step.closes = false ∧ s.seq.flow ≠ .held ∧
          s.cfg.flow.high ≤ s.seq.queue.length
        then s.link.placeNotice (.flow false) else s.link } := by
  unfold State.flowStep
  cases hc : step.closes
  · by_cases hh : s.seq.flow = .held
    · simp only [hh, if_true, true_or, ne_eq, not_true_eq_false, false_and, and_false, if_false,
        Bool.false_eq_true]
      rw [← hh]
    · by_cases hf : s.cfg.flow.high ≤ s.seq.queue.length <;>
        simp only [hh, hf, if_true, if_false, or_true, or_self, ne_eq, not_false_eq_true, true_and,
          Bool.false_eq_true, and_false] <;> rfl
  · simp only [if_true, Bool.true_eq_false, false_and, if_false]
    rfl

/-- Outside a stream's PRESTART, with the choice made, or without a spin field no spindle choice is made (R24). -/
theorem State.chooseSpin_none (s : State) (step : ScanStep)
    (h : ¬(s.seq.state = .prestart ∧ s.seq.segKind = some .stream ∧ s.seq.spinTaken = false ∧
      step.spin?.isSome = true)) : s.chooseSpin step = s := by
  unfold State.chooseSpin
  split
  · rename_i hs
    split
    · rename_i hsp
      exact absurd ⟨hs.1, hs.2.1, hs.2.2, by rw [hsp]; rfl⟩ h
    · rfl
  · rfl

/-- The spindle choice of a stream's PRESTART (R24, R64). -/
theorem State.chooseSpin_some (s : State) (step : ScanStep)
    (h : s.seq.state = .prestart ∧ s.seq.segKind = some .stream ∧ s.seq.spinTaken = false)
    (hsp : step.spin?.isSome = true) :
    s.chooseSpin step = { s with
      seq := { s.seq with spinTaken := true }
      travel := { s.travel with
        spindleCommand := step.spin?.getD 0,
        lowCount := if s.travel.spindleCommand = step.spin?.getD 0 then s.travel.lowCount
          else 0 } } := by
  obtain ⟨rpm, hr⟩ := Option.isSome_iff_exists.1 hsp
  unfold State.chooseSpin
  rw [if_pos h, hr]
  dsimp only [Option.getD_some, State.setSpindle, State.onTravel, State.onSeq, Travel.setSpindle]
  split
  · rename_i he
    rw [← he]
  · rfl

/-- The part after an accepted STEP has joined the queue and the flow state (R16, R17, R37, R39). -/
def State.joined (s : State) (step : ScanStep) : State :=
  { s with
    seq := { s.seq with
      queue := s.seq.queue ++ [⟨step, .link, s.seq.linkCount⟩]
      linkCount := (s.seq.linkCount + 1) % 65536
      segClosed := s.seq.segClosed || step.closes
      flow := if step.closes = true then .flowing
        else if s.seq.flow = .held ∨ s.cfg.flow.high ≤ s.seq.queue.length + 1 then .held
        else .flowing }
    link := if step.closes = false ∧ s.seq.flow ≠ .held ∧
        s.cfg.flow.high ≤ s.seq.queue.length + 1
      then s.link.placeNotice (.flow false) else s.link }

/-- An accepted STEP joins; then come the spindle choice, a source step at the head, and an empty RUNNING. -/
theorem State.acceptStep_eq (s : State) (step : ScanStep) :
    s.acceptStep step = ((s.joined step).chooseSpin step).sourceHead.vacantCheck := by
  unfold State.acceptStep
  dsimp only
  rw [State.flowStep_eq]
  simp only [State.onSeq, List.length_append, List.length_singleton]
  rfl

/-- Settles O31: the STEP joins, flow and spindle follow, and with no source step at the head and RUNNING not vacant nothing else. -/
theorem stepJoinsQueue : Obligations.StepJoinsQueue := by
  intro tag s r step taken hl hq hrec ho hn hres hfin hv hh holds spins rpm reply
  have hs := s.seq.linkStep_some r step hrec ho hn hres hfin
  let u : State := { s with link := reply }
  rw [exec_step_taken r taken, s.serveStep_accepted tag r step hl hq hs,
    show State.acceptStep _ step = _ from u.acceptStep_eq step]
  have hclosed : (u.seq.segClosed || step.closes) = step.closes := by
    rw [show u.seq.segClosed = false from ho, Bool.false_or]
  by_cases hx : spins
  · obtain ⟨h1, h2, h3, h4⟩ := id hx
    rw [State.chooseSpin_some (u.joined step) step ⟨h1, h2, h3⟩ h4, State.sourceHead_id _ hh,
      State.vacantCheck_id]
    · simp only [if_pos hx, State.joined, hclosed]
      rfl
    · exact hv
  · rw [State.chooseSpin_none (u.joined step) step hx, State.sourceHead_id _ hh,
      State.vacantCheck_id (u.joined step) hv]
    simp only [if_neg hx, State.joined, hclosed]
    rfl

/-! ### The loader (R36) -/

/-- The part after the loader has put the step at its index on the queue and moved on to a loader state (R17, R36). -/
def State.loaded (s : State) (l : Loader) (step : ScanStep) (st : LoaderState) : State :=
  { s with
    seq := { s.seq with
      queue := s.seq.queue ++ [⟨step, .profile, l.index⟩]
      loader := some ⟨l.page, l.index + 1, st⟩
      programEnd := if st = .exhausted then true else s.seq.programEnd } }

/-- Without a RUNNING loader, without room, or outside PRESTART and RUNNING nothing is appended (R36). -/
theorem State.loaderAppend_idle (s : State)
    (h : (∀ l, s.seq.loader = some l → l.state ≠ .running) ∨ 32 ≤ s.seq.queue.length ∨
      (s.seq.state ≠ .prestart ∧ s.seq.state ≠ .running)) : s.loaderAppend = s := by
  have hd : s.loaderDue = false := by
    unfold State.loaderDue queueCap
    rcases h with h | h | ⟨h1, h2⟩
    · cases hl : s.seq.loader with
      | none => simp
      | some l => simp [h l hl]
    · simp [Nat.not_lt.2 h]
    · simp [h1, h2]
  unfold State.loaderAppend
  rw [hd]
  rfl

/-- The append of a RUNNING loader with room (R36). -/
theorem State.loaderAppend_joins (s : State) (l : Loader) (step : ScanStep)
    (hs : s.seq.state = .prestart ∨ s.seq.state = .running) (hl : s.seq.loader = some l)
    (hr : l.state = .running) (hq : s.seq.queue.length < 32)
    (hat : s.store.stepAt l.page l.index = some step) :
    s.loaderAppend =
      (s.loaded l step (loaderAfter l step (s.store.stepCount l.page)).state).sourceHead.vacantCheck := by
  have hd : s.loaderDue = true := by
    unfold State.loaderDue queueCap
    rcases hs with hs | hs <;> simp [hs, hl, hr, hq]
  unfold State.loaderAppend
  rw [if_pos hd, hl]
  dsimp only
  rw [hat]
  dsimp only
  congr 2
  unfold State.onSeq State.loaded loaderAfter
  dsimp only
  split <;> split_ifs <;> simp_all

/-- Behind any other step the loader runs on to the step count (R36). -/
theorem loaderAfter_other (l : Loader) (step : ScanStep) (count : Nat) (h : ∀ n, step ≠ .splice n) :
    (loaderAfter l step count).state = if l.index + 1 = count then .exhausted else .running := by
  unfold loaderAfter
  cases step
  case splice n => exact absurd rfl (h n)
  all_goals rfl

/-- LOADER_APPEND by the place its step takes: nothing at the head, a SPLICE at the head, or an empty RUNNING. -/
theorem loaderAppend_places (s : State) (l : Loader) (step : ScanStep)
    (hs : s.seq.state = .prestart ∨ s.seq.state = .running) (hl : s.seq.loader = some l)
    (hr : l.state = .running) (hq : s.seq.queue.length < 32)
    (hat : s.store.stepAt l.page l.index = some step) (st : LoaderState)
    (hst : (loaderAfter l step (s.store.stepCount l.page)).state = st) :
    let quiet := ∀ q rest, firstNonMark (s.seq.queue ++ [⟨step, .profile, l.index⟩]) =
      some (q, rest) → q.step.isSource = false
    (quiet → exec .loaderAppend s = .next (s.loaded l step st).vacantCheck) ∧
      (step.isSource = true → s.vacant = false → (∀ q ∈ s.seq.queue, q.step.isMark = true) →
        exec .loaderAppend s = .next ((s.loaded l step st).sourced s.seq.queue step)) := by
  intro quiet
  have joins : exec .loaderAppend s = .next (s.loaded l step st).sourceHead.vacantCheck := by
    rw [← hst, ← s.loaderAppend_joins l step hs hl hr hq hat]
    rfl
  refine ⟨fun h => ?_, fun h hv hm => ?_⟩
  · rw [joins, State.sourceHead_id _ h]
  · rw [joins, State.sourceHead_source _ s.seq.queue [] ⟨step, .profile, l.index⟩ h hm rfl,
      List.append_nil, State.vacantCheck_id]
    rw [(State.sourced_same _ _ _).2.1]
    exact hv

/-! ### STEP with a source step at the head, and in an empty RUNNING -/

/-- A RESUME or END that is accepted comes to the head of a queue of marks (R29, R38). -/
theorem State.acceptStep_closes (s : State) (step : ScanStep) (hc : step.closes = true)
    (hm : ∀ q ∈ s.seq.queue, q.step.isMark = true) :
    s.acceptStep step = ((s.joined step).sourced s.seq.queue step).vacantCheck := by
  have hspin : step.spin? = none := by
    rcases (ScanStep.closes_iff step).1 hc with rfl | rfl <;> rfl
  have hsrc : step.isSource = true := by
    rcases (ScanStep.closes_iff step).1 hc with rfl | rfl <;> rfl
  rw [State.acceptStep_eq, State.chooseSpin_none _ step (by simp [hspin]),
    State.sourceHead_source _ s.seq.queue [] ⟨step, .link, s.seq.linkCount⟩ hsrc hm rfl,
    List.append_nil]

/-- Its act leaves the segment closed and the flow FLOWING (R16, R39). -/
theorem State.joined_closes (s : State) (step : ScanStep) (hc : step.closes = true) :
    (s.joined step).sourced s.seq.queue step = State.sourced { s with
      seq := { s.seq with
        linkCount := (s.seq.linkCount + 1) % 65536, segClosed := true, flow := .flowing } }
      s.seq.queue step := by
  have ho : (s.seq.segClosed || true) = true := Bool.or_true _
  rcases (ScanStep.closes_iff step).1 hc with rfl | rfl <;>
    (simp only [State.joined, ScanStep.closes, ho]; rfl)

/-- A step that is no source step joins a queue of marks in RUNNING, where no spindle choice is made (R24, R29). -/
theorem State.acceptStep_running (s : State) (step : ScanStep) (hr : s.seq.state = .running)
    (hsrc : step.isSource = false) (hk : step.isMark = false)
    (hm : ∀ q ∈ s.seq.queue, q.step.isMark = true) :
    s.acceptStep step = (s.joined step).vacantCheck := by
  have hspins : (s.joined step).seq.state ≠ .prestart := by
    rw [show (s.joined step).seq.state = .running from hr]
    decide
  rw [State.acceptStep_eq, State.chooseSpin_none _ step (fun h => hspins h.1), State.sourceHead_id]
  intro q rest h
  have hfirst := firstNonMark_marks s.seq.queue [] ⟨step, .link, s.seq.linkCount⟩ hk hm
  cases hfirst.symm.trans h
  exact hsrc

/-- The entry to RUNOUT sets the flow state and reads none of it, and reads position, planned speed, still count and mode of the
carriage alone (R45, R46). -/
theorem EnteredRunout.of_same {s t : State} {c : EndCause} {stop : Option Int} {f : FlowState}
    {x : Travel} (h : EnteredRunout { s with seq := { s.seq with flow := f }, travel := x } t c stop)
    (hp : x.position = s.travel.position) (hv : x.planSpeed = s.travel.planSpeed)
    (hs : x.still = s.travel.still) (hm : x.mode = s.travel.mode) : EnteredRunout s t c stop := by
  simpa [EnteredRunout, Keeps, State.unsprayed, hp, hv, hs, hm] using h

/-- Settles O60: the loader's append by its place, then RESUME, END and a plain step as STEP brings them. -/
theorem loaderAndSourceSteps : Obligations.LoaderAndSourceSteps := by
  refine ⟨fun s => ⟨fun h => congrArg Host.Outcome.next (s.loaderAppend_idle h), ?_⟩, ?_⟩
  · intro l step hs hl hr hq hat last joined moved quiet after
    have places := loaderAppend_places s l step hs hl hr hq hat
    have quietly : ∀ st, (loaderAfter l step (s.store.stepCount l.page)).state = st →
        s.vacant = false → quiet → exec .loaderAppend s = .next (moved st) := fun st hst hv h => by
      rw [(places st hst).1 h, State.vacantCheck_id (s.loaded l step st) hv]
      rfl
    have afterLast : last → (loaderAfter l step (s.store.stepCount l.page)).state = .exhausted :=
      fun h => by rw [loaderAfter_other l step _ h.2, if_pos h.1]
    refine ⟨fun hv h ⟨n, hn⟩ => ?_, fun hv h hlast => ?_, fun hv h hn hlast => ?_,
      fun n hv hn hm => ?_, fun hv hnext h htr hroom => ⟨fun hm hsup => ?_, fun hm hlast => ?_⟩⟩
    · exact quietly _ (by rw [hn]; rfl) hv h
    · exact quietly _ (afterLast hlast) hv h
    · refine quietly _ ?_ hv h
      rw [loaderAfter_other l step _ hn, if_neg (fun hc => hlast ⟨hc, hn⟩)]
    · exact (places .atSplice (by rw [hn]; rfl)).2 (by rw [hn]; rfl) hv hm
    · refine ⟨_, ((places after rfl).1 h).trans (congrArg Host.Outcome.next ?_),
        State.runoutEntry_spec (moved after) .supplyLost none htr hroom⟩
      exact State.vacantCheck_lost _ hv hnext ((onlyMarks_false_iff _).2 hm) hsup
    · refine ⟨_, ((places .exhausted (afterLast hlast)).1 h).trans (congrArg Host.Outcome.next ?_),
        State.runoutEntry_spec (moved .exhausted) .complete none htr hroom⟩
      exact State.vacantCheck_complete _ hv hnext ((onlyMarks_iff _).2 hm) rfl
  · intro tag s r step taken hl hq hrec ho reply joins closed holds joined
    let u : State := { s with link := reply }
    have accepts : (∀ n, step ≠ .splice n) → (step = .resume → s.seq.segKind = some .splice) →
        (step = .finish → s.seq.segKind = some .stream) →
        exec (.step tag r) s = .next (u.acceptStep step) := fun hn hres hfin => by
      rw [exec_step_taken r taken, s.serveStep_accepted tag r step hl hq
        (s.seq.linkStep_some r step hrec ho hn hres hfin)]
    refine ⟨fun hj hv hm => ?_, fun hf hk hv hnext hm htr hroom => ?_,
      fun hsrc hmark hv hnext hm hsup htr hroom => ?_⟩
    · have hc : step.closes = true := by rcases hj with ⟨rfl, _⟩ | ⟨rfl, _⟩ <;> rfl
      have hacc := accepts (by rcases hj with ⟨rfl, _⟩ | ⟨rfl, _⟩ <;> nofun)
        (by rcases hj with ⟨rfl, hk⟩ | ⟨rfl, _⟩; exacts [fun _ => hk, nofun])
        (by rcases hj with ⟨rfl, _⟩ | ⟨rfl, hk⟩; exacts [nofun, fun _ => hk])
      rw [hacc, State.acceptStep_closes u step hc hm, State.joined_closes u step hc,
        State.vacantCheck_id (closed.sourced s.seq.queue step) ((State.sourced_same _ _ _).2.1.trans hv)]
    · subst hf
      have hacc := accepts nofun nofun fun _ => hk
      rw [State.acceptStep_closes u _ rfl hm, State.joined_closes u _ rfl,
        State.vacantCheck_complete (closed.sourced s.seq.queue .finish) hv hnext
          ((onlyMarks_iff _).2 hm) rfl] at hacc
      exact ⟨_, hacc, State.runoutEntry_spec (closed.sourced s.seq.queue .finish) .complete none htr
        hroom⟩
    · have hrun := ((State.vacant_iff s).1 hv).1
      have hother : ∃ x ∈ (u.joined step).seq.queue, x.step.isMark = false :=
        ⟨⟨step, .link, s.seq.linkCount⟩, List.mem_append_right _ (List.mem_singleton.2 rfl), hmark⟩
      have hc := ScanStep.closes_of_plain step hsrc
      have hacc := accepts (by rintro n rfl; cases hsrc) (by rintro rfl; cases hsrc)
        (by rintro rfl; cases hsrc)
      rw [State.acceptStep_running u step hrun hsrc hmark hm, State.vacantCheck_lost (u.joined step) hv
        hnext ((onlyMarks_false_iff _).2 hother) hsup] at hacc
      refine ⟨_, hacc, ?_⟩
      have spec := State.runoutEntry_spec (u.joined step) .supplyLost none htr hroom
      have same : u.joined step =
          { joined with seq := { joined.seq with flow := (u.joined step).seq.flow } } := by
        simp only [State.joined, hc, Bool.or_false, true_and]
        rfl
      rw [same] at spec ⊢
      exact spec.of_same rfl rfl rfl rfl

end Sys2Proof.Machine

namespace Sys2Proof.Machine

/-! ### Conditions of the carriage and the spindle (R50, R51, R65) -/

theorem Travel.stopped_iff (t : Travel) : t.stopped = true ↔ t.still = 20 := by
  simp [Travel.stopped]

theorem Travel.atRest_iff (t : Travel) : t.atRest = true ↔ t.planSpeed = 0 ∧ t.still = 20 := by
  simp [Travel.atRest, Travel.stopped]

theorem Travel.spindleReady_iff (t : Travel) :
    t.spindleReady = true ↔ t.spindleCommand = 0 ∨
      ((t.rpm : Int) - t.spindleCommand).natAbs * 10 ≤ t.spindleCommand := by
  simp [Travel.spindleReady]

/-- An order to HOLD changes an awake generator's plan nowhere (R51). -/
theorem Travel.orderHold_eq (t : Travel) (h : t.mode ≠ .disabled) : t.orderHold = t.held := by
  unfold Travel.orderHold Travel.awake Travel.held
  rw [if_neg h]

/-- Empty trails have room. -/
theorem HasTrailRoom.of_empty (s : State) (h : s.quench.trailsEmpty = true) : HasTrailRoom s := by
  unfold Quench.trailsEmpty at h
  rw [Bool.and_eq_true, List.isEmpty_iff, List.isEmpty_iff] at h
  unfold HasTrailRoom
  rw [h.1, h.2]
  decide

/-! ### Arrival, RETURNED and the stopped turn (R43, R44, R63) -/

theorem State.returnDue_iff (s : State) :
    s.returnDue = true ↔ s.seq.state = .running ∧ s.seq.turnPhase = .return ∧
      s.travel.mode = .target ∧ s.travel.planSpeed = 0 ∧ s.travel.still = 20 ∧
      ∃ p, s.travel.stopPoint = some p ∧ s.travel.plan = p * 1000 := by
  unfold State.returnDue
  simp only [Bool.and_eq_true, beq_iff_eq, Travel.atRest_iff, and_assoc]
  cases s.travel.stopPoint <;> simp

theorem State.turnActivationDue_iff (s : State) :
    s.turnActivationDue = true ↔ s.seq.state = .running ∧ s.seq.active = none ∧
      s.seq.turnPhase = .none ∧ (∃ a, s.seq.next = some a ∧ a.turn = true) ∧
      s.quench.trailsEmpty = true ∧ s.travel.still = 20 := by
  unfold State.turnActivationDue
  simp only [Bool.and_eq_true, State.vacant_iff, Travel.stopped_iff, and_assoc]
  cases s.seq.next <;> simp

/-- RETURNED, due or not (R44, R51). -/
theorem exec_returned (s : State) :
    (∀ a, s.returnDue = true → s.seq.next = some a → exec .returned s = .next (s.activate a)) ∧
      (s.returnDue = false ∨ s.seq.next = none → exec .returned s = .next s) := by
  have hx : exec .returned s = .next s.returned := rfl
  rw [hx]
  unfold State.returned
  refine ⟨fun a hd hn => ?_, fun h => ?_⟩
  · rw [if_pos hd, hn]
  · rcases h with h | h <;> simp [h]

/-- The stopped condition of a turn with empty trails, due or not (R43). -/
theorem exec_turnStoppedActivation (s : State) :
    (∀ a, s.turnActivationDue = true → s.seq.next = some a →
        exec .turnStoppedActivation s = .next (s.activate a)) ∧
      (s.turnActivationDue = false → exec .turnStoppedActivation s = .next s) := by
  have hx : exec .turnStoppedActivation s = .next s.turnStoppedActivation := rfl
  rw [hx]
  unfold State.turnStoppedActivation
  refine ⟨fun a hd hn => ?_, fun h => ?_⟩
  · rw [if_pos hd, hn]
  · rw [h]
    rfl

/-- ARRIVED with its arrival seen (R63). -/
theorem State.arrived_due (s : State) (p : Int) (ha : s.travel.arrivalSeen = true)
    (hs : s.seq.state = .positioning) (hm : s.travel.mode = .target)
    (hp : s.travel.stopPoint = some p) :
    s.arrived = State.enter
      { s with travel := { (s.travel.planAt p).held with arrivalSeen := false } } .idle .arrived := by
  have hd : (s.travel.planAt p).mode ≠ .disabled := by
    rw [show (s.travel.planAt p).mode = s.travel.mode from rfl, hm]
    decide
  unfold State.arrived
  rw [if_pos ⟨ha, hs, hm⟩, hp]
  dsimp only [State.onTravel]
  rw [Travel.orderHold_eq _ hd]

theorem State.arrived_early (s : State)
    (h : ¬(s.travel.arrivalSeen = true ∧ s.seq.state = .positioning ∧ s.travel.mode = .target ∧
      ∃ p, s.travel.stopPoint = some p)) : s.arrived = s := by
  unfold State.arrived
  split
  · rename_i hd
    split
    · rename_i p hp
      exact absurd ⟨hd.1, hd.2.1, hd.2.2, p, hp⟩ h
    · rfl
  · rfl

/-- Settles O57: each event due and not due; the turn step is activated as `Activated` says. -/
theorem arrivalsAndTurns : Obligations.ArrivalsAndTurns := by
  intro s
  refine ⟨fun p ha hs hm hp => ?_, fun h => ?_, fun a p hs ht hm hv hst hp hpl hn hroom => ?_,
    fun h => ?_, fun a hs hact htp hn hturn hemp hst => ?_, fun h => ?_⟩
  · exact congrArg Host.Outcome.next (s.arrived_due p ha hs hm hp)
  · exact congrArg Host.Outcome.next (s.arrived_early h)
  · have due := (s.returnDue_iff).2 ⟨hs, ht, hm, hv, hst, p, hp, hpl⟩
    exact ⟨_, (exec_returned s).1 a due hn, s.activate_spec a hroom⟩
  · refine (exec_returned s).2 ?_
    by_cases hd : s.returnDue = true
    · obtain ⟨h1, h2, h3, h4, h5, h6⟩ := (s.returnDue_iff).1 hd
      exact .inr (Option.not_isSome_iff_eq_none.1 fun hn => h ⟨h1, h2, h3, h4, h5, hn, h6⟩)
    · exact .inl (Bool.eq_false_iff.2 hd)
  · have due := (s.turnActivationDue_iff).2 ⟨hs, hact, htp, ⟨a, hn, hturn⟩, hemp, hst⟩
    exact ⟨_, (exec_turnStoppedActivation s).1 a due hn,
      s.activate_spec a (HasTrailRoom.of_empty s hemp)⟩
  · refine (exec_turnStoppedActivation s).2 (Bool.eq_false_iff.2 fun hd => h ?_)
    obtain ⟨h1, h2, h3, h4, h5, h6⟩ := (s.turnActivationDue_iff).1 hd
    exact ⟨h1, h2, h3, h5, h6, h4⟩

/-! ### The step in Next behind an empty Active (R25, R35, R43) -/

theorem State.proceed_step (s : State) (a : Admitted) (hn : s.seq.next = some a)
    (ht : a.turn = false) : s.proceed = s.activate a := by
  simp [State.proceed, hn, ht]

theorem State.proceed_turn (s : State) (a : Admitted) (hn : s.seq.next = some a)
    (ht : a.turn = true) :
    s.proceed = if s.quench.trailsEmpty then s.onTravel Travel.orderHold else s.beginDrain := by
  simp [State.proceed, hn, ht]

theorem State.proceed_empty (s : State) (hn : s.seq.next = none) :
    s.proceed = s.onTravel Travel.orderHold := by
  simp [State.proceed, hn]

/-- Behind an activation RUNNING is not vacant. -/
theorem Activated.not_vacant {s t : State} {a : Admitted} (h : Activated s t a) :
    t.vacant = false := by
  unfold State.vacant
  rw [h.1]
  simp

/-! ### The entry to RUNNING (R25) -/

theorem State.runningDue_iff (s : State) :
    s.runningDue = true ↔ s.seq.state = .prestart ∧ s.quench.supplyReady = true ∧
      s.inputs.ready = true ∧ (s.travel.spindleCommand = 0 ∨
        ((s.travel.rpm : Int) - s.travel.spindleCommand).natAbs * 10 ≤ s.travel.spindleCommand) := by
  unfold State.runningDue
  simp only [Bool.and_eq_true, beq_iff_eq, Travel.spindleReady_iff, and_assoc]

/-- Settles O58: RUNNING entered, then the step in Next, the wait in HOLD, or the run-out of a spent program. -/
theorem entersRunning : Obligations.EntersRunning := by
  intro s spindle due entered
  have enters : due → exec .enterRunning s = .next entered.proceed.vacantCheck := fun hd =>
    congrArg Host.Outcome.next (if_pos ((s.runningDue_iff).2 hd))
  have holds : s.travel.mode = .hold → entered.onTravel Travel.orderHold = { entered with
      travel := s.travel.held } := fun hm => by
    unfold State.onTravel
    rw [Travel.orderHold_eq entered.travel (by rw [show entered.travel.mode = .hold from hm]; decide)]
  refine ⟨fun h => ?_, fun a hd hn ht hroom => ?_, fun hd hn hq hm => ?_,
    fun hd hn ha htp hp hq hm htr hroom => ?_⟩
  · exact congrArg Host.Outcome.next (if_neg fun hd => h ((s.runningDue_iff).1 hd))
  · have act := entered.activate_spec a hroom
    refine ⟨_, ?_, act⟩
    rw [enters hd, entered.proceed_step a hn ht, State.vacantCheck_id _ act.not_vacant]
  · rw [enters hd, entered.proceed_empty hn, holds hm, State.vacantCheck_waits]
    · unfold Travel.held
      rw [← hm]
    · exact hd.2.1
    · exact hq.imp id (onlyMarks_false_iff _).2
  · have hv : entered.vacant = true := (State.vacant_iff _).2 ⟨rfl, ha, htp⟩
    refine ⟨_, ?_, EnteredRunout.of_same (f := s.seq.flow) (x := s.travel.held)
      (State.runoutEntry_spec { entered with travel := s.travel.held } .complete none htr hroom)
      rfl rfl rfl hm.symm⟩
    rw [enters hd, entered.proceed_empty hn, holds hm]
    exact congrArg Host.Outcome.next
      (State.vacantCheck_complete _ hv hn ((onlyMarks_iff _).2 hq) hp)

end Sys2Proof.Machine

namespace Sys2Proof.Machine

/-! ### The exit from PRESTART (R26) -/

/-- A start of the pump idle timer is what `Quench.idling` says (R109, R110). -/
theorem Quench.idleStart_eq (q : Quench) (c : QuenchCfg) : q.idleStart c = q.idling c.pumpIdle := rfl

/-- The closed record of an open one (R160, R164). -/
theorem OpenRecord.close_closedFrom (r : OpenRecord) (c : EndCause) (time : Nat)
    (trip : Option TripRecord) : ClosedFrom r (r.close c time trip) c time trip := by
  refine ⟨rfl, rfl, rfl, rfl, rfl, rfl, rfl, rfl, rfl, ?_, fun hp => ?_⟩
  · simp [OpenRecord.close, summariesFrom_length]
  · simp [OpenRecord.close, verdictOf, hp]

/-- The spindle command set, by fields (R64, R65). -/
theorem Travel.setSpindle_eq (t : Travel) (r : Nat) :
    t.setSpindle r = { t with
      spindleCommand := r, lowCount := if t.spindleCommand = r then t.lowCount else 0 } := by
  unfold Travel.setSpindle
  split
  · rename_i h
    rw [← h]
  · rfl

/-- Without an Active step a scan leaves PRESTART as `LeftPrestart` says (R26). -/
theorem State.exitPrestart_spec (s : State) (c : EndCause) (ha : s.seq.active = none) :
    LeftPrestart s (s.exitPrestart c) c s.link := by
  have quiet : s.unsprayed = s.quench := by unfold State.unsprayed; rw [ha]; rfl
  refine ⟨s.exitPrestart_seq c, s.exitPrestart_power c, ?_, ?_, s.exitPrestart_store c,
    fun r hr => ⟨⟨r.close c (s.seq.scanClock.getD 0) none, r.close_closedFrom _ _ _, ?_⟩, ?_⟩, ?_⟩
  · rw [State.exitPrestart_travel, Travel.setSpindle_eq]
  · unfold State.exitPrestart
    simp [State.flush_unsprayed, Quench.idleStart_eq]
    exact congrArg (Quench.idling · s.cfg.quench.pumpIdle) quiet
  · rw [State.exitPrestart_zones]
    unfold Zones.onOpen Zones.close
    rw [hr]
    rfl
  · unfold State.exitPrestart
    dsimp only
    rw [State.scanOver_link, State.closeRecord_link_some _ c none r.noZone (by simp [hr, Zones.onOpen])]
    simp [Link.stated, OpenRecord.noZone]
  · simp [Keeps]

/-! ### Admission (R30, R31) -/

theorem State.admission_idle (s : State)
    (h : s.seq.next.isSome = true ∨ s.quench.supplyReady = false ∨ onlyMarks s.seq.queue = true ∨
      (s.seq.state ≠ .prestart ∧ s.seq.state ≠ .running)) : s.admission = s := by
  have hd : s.admissionDue = false := by
    unfold State.admissionDue
    rcases h with h | h | h | ⟨h1, h2⟩
    · simp [Option.isSome_iff_ne_none.1 h]
    · simp [h]
    · simp [firstNonMark_onlyMarks _ h]
    · simp [h1, h2]
  unfold State.admission
  rw [hd]
  rfl

theorem ScanStep.stop_of_still (step : ScanStep) (h : step.isMotion = false) : step.stop? = none := by
  cases step
  case move => cases h
  case heat => cases h
  all_goals rfl

/-- The admitted form of a step, its direction and turn mark written out (R3, R30, R32). -/
theorem State.admitStep_eq (s : State) (q : QStep) :
    let start := s.seq.nominal
    let stop := q.step.stop?.getD start
    let dir : Option Dir := if start < stop then some .forward
      else if stop < start then some .reverse else none
    s.admitStep q =
      { step := q.step, origin := q.origin, index := q.index, start := start, stop := stop, dir := dir,
        turn := decide (dir = some .forward ∧ s.seq.passDir = some .reverse ∨
          dir = some .reverse ∧ s.seq.passDir = some .forward)
        marks := headMarks s.seq.queue } := by
  intro start stop dir
  have hdir : (if q.step.isMotion = true then dirTo start stop else none) = dir := by
    cases hm : q.step.isMotion
    · have hs : stop = start := congrArg (Option.getD · start) (ScanStep.stop_of_still _ hm)
      simp [dir, hs]
    · rfl
  have hturn : ∀ d p : Option Dir,
      (match d, p with | some d, some p => d == p.opposite | _, _ => false) =
        decide (d = some .forward ∧ p = some .reverse ∨ d = some .reverse ∧ p = some .forward) := by
    rintro (_ | _ | _) (_ | _ | _) <;> rfl
  rw [← hturn, ← hdir]
  rfl

/-- The checks of R31, written out for the first step of the queue. -/
theorem State.admissible_iff (s : State) (q : QStep) :
    s.admissible (s.admitStep q) = true ↔
      (q.step.isMotion = true → s.seq.nominal ≠ q.step.stop?.getD s.seq.nominal ∧
        s.cfg.machine.softLow ≤ q.step.stop?.getD s.seq.nominal ∧
          q.step.stop?.getD s.seq.nominal ≤ s.cfg.machine.softHigh) ∧
      ∀ z, q.step.zone? = some z → z < s.seq.zoneCount := by
  unfold State.admissible State.admissible.inRange State.admitStep
  cases q.step.isMotion <;> cases q.step.zone? <;> simp

/-- The part with the first non-MARK step in Next, before what comes to the queue's head acts (R30, R39). -/
def State.withNext (s : State) (q : QStep) (rest : List QStep) : State :=
  let falls := s.seq.flow = .held ∧ rest.length ≤ s.cfg.flow.low
  let a := s.admitStep q
  { s with
    seq := { s.seq with
      queue := rest, next := some a, nominal := a.stop, passDir := s.seq.passDir.or a.dir
      flow := if falls then .released else s.seq.flow }
    link := if falls then s.link.placeNotice (.flow true) else s.link }

/-- An admission that is due fills Next, or ends the scan (R30, R31). -/
theorem State.admission_due (s : State) (q : QStep) (rest : List QStep)
    (hs : s.seq.state = .prestart ∨ s.seq.state = .running) (hn : s.seq.next = none)
    (hr : s.quench.supplyReady = true) (hq : firstNonMark s.seq.queue = some (q, rest))
    (hsrc : q.step.isSource = false) :
    s.admission =
      if s.admissible (s.admitStep q) = true then
        (if (s.withNext q rest).sourceHead.vacant then (s.withNext q rest).sourceHead.proceed
        else (s.withNext q rest).sourceHead)
      else s.programError := by
  have hd : s.admissionDue = true := by
    unfold State.admissionDue
    rcases hs with hs | hs <;> simp [hs, hn, hr, hq, hsrc]
  unfold State.admission
  rw [if_pos hd, hq]
  dsimp only
  have fall : State.flowFall (s.onSeq fun x => { x with
      queue := rest, next := some (s.admitStep q), nominal := (s.admitStep q).stop
      passDir := if x.passDir.isNone then (s.admitStep q).dir else x.passDir }) =
      s.withNext q rest := by
    have hpass : (if s.seq.passDir.isNone = true then (s.admitStep q).dir else s.seq.passDir) =
        s.seq.passDir.or (s.admitStep q).dir := by cases s.seq.passDir <;> rfl
    unfold State.flowFall State.withNext
    simp only [State.onSeq, hpass]
    split <;> rfl
  rw [fall]

/-- Settles O59: not due; then the admitted step by what comes to the head behind it and by an empty RUNNING; then the failed check. -/
theorem admissionFillsNext : Obligations.AdmissionFillsNext := by
  intro s
  refine ⟨fun h => congrArg Host.Outcome.next (s.admission_idle h), ?_⟩
  intro q rest hs hn hr hq hsrc start stop dir fits falls admitted taken quiet
  have hadm : s.admitStep q = admitted := s.admitStep_eq q
  have hnext : s.withNext q rest = taken := by
    unfold State.withNext
    rw [hadm]
  have due := s.admission_due q rest hs hn hr hq hsrc
  rw [hnext] at due
  have good : fits → exec .admission s = .next (if taken.sourceHead.vacant then
      taken.sourceHead.proceed else taken.sourceHead) := fun h =>
    congrArg Host.Outcome.next (due.trans (if_pos ((s.admissible_iff q).2 h)))
  have bad : ¬fits → exec .admission s = .next s.programError := fun h =>
    congrArg Host.Outcome.next (due.trans (if_neg fun k => h ((s.admissible_iff q).1 k)))
  have hvac : taken.vacant = s.vacant := rfl
  have head : quiet → taken.sourceHead = taken := taken.sourceHead_id
  have acts : ∀ marks q' rest', rest = marks ++ q' :: rest' →
      (∀ m ∈ marks, m.step.isMark = true) → q'.step.isSource = true →
      taken.sourceHead = taken.sourced (marks ++ rest') q'.step := fun marks q' rest' he hm hs' =>
    taken.sourceHead_source marks rest' q' hs' hm he
  refine ⟨fun hf hv hh => ?_, fun hf hv marks q' rest' he hm hs' => ?_,
    fun hf hv hh ht hroom => ?_, fun hf hv ht hroom marks q' rest' he hm hs' => ?_,
    fun hf hv hh ht => ?_, fun hf hp hinv _ => ?_, fun hf hrun htr hroom => ?_⟩
  · rw [good hf, head hh, if_neg (by rw [hvac, hv]; decide)]
  · rw [good hf, acts marks q' rest' he hm hs', if_neg]
    rw [(State.sourced_same taken _ _).2.1, hvac, hv]
    decide
  · refine ⟨_, ?_, taken.activate_spec admitted hroom⟩
    rw [good hf, head hh, if_pos (hvac.trans hv), taken.proceed_step admitted rfl ht]
  · obtain ⟨hsn, hsv, hsq⟩ := State.sourced_same taken (marks ++ rest') q'.step
    refine ⟨_, ?_, State.activate_spec _ admitted (by unfold HasTrailRoom; rw [hsq]; exact hroom)⟩
    rw [good hf, acts marks q' rest' he hm hs', if_pos (hsv.trans hv),
      State.proceed_step _ admitted hsn ht]
  · obtain ⟨_, _, htp⟩ := (State.vacant_iff s).1 hv
    refine ⟨taken.proceed, by rw [good hf, head hh, if_pos (hvac.trans hv)], ?_⟩
    rw [taken.proceed_turn admitted rfl ht]
    cases s.quench.trailsEmpty
    · exact ⟨rfl, by simp [Keeps, State.beginDrain]⟩
    · refine ⟨?_, by simp [Keeps]⟩
      rw [if_pos rfl, if_pos rfl, ← htp]
      rfl
  · have hact : s.seq.active = none := by
      obtain ⟨_, _, hact, _⟩ := hinv
      by_contra hne
      have := (hact (Option.isSome_iff_ne_none.2 hne)).1
      rw [hp] at this
      cases this
    refine ⟨_, ?_, s.exitPrestart_spec .programError hact⟩
    rw [bad hf, State.programError, if_pos hp]
  · refine ⟨_, ?_, s.runoutEntry_spec .programError none htr hroom⟩
    rw [bad hf, State.programError, if_neg (by rw [hrun]; decide)]

end Sys2Proof.Machine

namespace Sys2Proof.Machine

/-! ### A latching trip with STOP_FLOOD (R137, R139, R142) -/

/-- Two states are the same when their blocks are. -/
theorem State.eq_of_blocks {s t : State} (hcfg : s.cfg = t.cfg) (hseq : s.seq = t.seq)
    (htravel : s.travel = t.travel) (hpower : s.power = t.power) (hquench : s.quench = t.quench)
    (hmeas : s.meas = t.meas) (htrip : s.trip = t.trip) (hzones : s.zones = t.zones)
    (hstore : s.store = t.store) (hlink : s.link = t.link) (hinputs : s.inputs = t.inputs)
    (hpending : s.pending = t.pending) : s = t := by
  cases s
  cases t
  simp only [State.mk.injEq]
  exact ⟨hcfg, hseq, htravel, hpower, hquench, hmeas, htrip, hzones, hstore, hlink, hinputs, hpending⟩

/-- The flood order takes Q3, with a running flood as it stands (R103). -/
theorem Quench.floodOrder_eq (q : Quench) (c : QuenchCfg) :
    q.floodOrder c = { q with
      circuit := if q.q3Owner = .flood then q.circuit
        else { q.circuit with q3 := q.circuit.q3.opened c .q3 }
      q3Owner := .flood
      floodTimer := if q.q3Owner = .flood then q.floodTimer else some c.flood } := by
  unfold Quench.floodOrder
  split
  · rename_i h
    rw [← h]
  · rw [Quench.openValve_eq]
    rfl

/-- A flood that owns Q3 is neither closed by a SPRAY step that leaves nor started again (R102, R103). -/
theorem Quench.floodOrder_kept (q : Quench) (c : QuenchCfg) :
    (q.floodOrder c).sprayClose = q.floodOrder c ∧
      (q.floodOrder c).floodOrder c = q.floodOrder c := by
  have ho : (q.floodOrder c).q3Owner = .flood := by rw [Quench.floodOrder_eq]
  refine ⟨if_neg (by rw [ho]; decide), if_pos ho⟩

theorem CircuitState.opened_valve (w : CircuitState) (c : QuenchCfg) (k : Circuit) :
    (w.opened c k).valve = true := by
  unfold CircuitState.opened
  split
  · assumption
  · split <;> rfl

/-- The Sequencer's fields behind a flush, in a state and with an end cause (R45, R139). -/
def Seq.flushed (q : Seq) (st : SeqState) (last : Option EndCause) : Seq :=
  { q with
    state := st, queue := [], next := none, active := none, turnPhase := .none, source := .none,
    flow := .flowing, loader := none, stepTimer := none, prestartTimer := none, lastEnd := last }

/-- The orders that STOP_FLOOD starts with (R139, R142). -/
theorem State.tripOrders_stopFlood (s : State) :
    s.tripOrders .stopFlood = { s with
      seq := s.seq.flushed s.seq.state
        (if s.seq.state.isScan then some .tripped else s.seq.lastEnd)
      power := s.power.off
      quench := s.quench.floodOrder s.cfg.quench
      zones := s.zones.onOpen OpenRecord.noZone } := by
  have kept : ∀ t : State, t.quench = s.quench.floodOrder s.cfg.quench →
      t.flush.quench = s.quench.floodOrder s.cfg.quench := fun t ht => by
    rcases t.flush_quench with h | h <;> rw [h, ht]
    exact (s.quench.floodOrder_kept s.cfg.quench).1
  unfold State.tripOrders
  dsimp only
  rw [if_pos rfl]
  cases s.seq.state.isScan <;> refine State.eq_of_blocks ?_ ?_ ?_ ?_ (kept _ ?_) ?_ ?_ ?_ ?_ ?_ ?_ ?_ <;>
    simp <;> rfl

/-- The part behind a latching trip that takes STOP_FLOOD outside IDLE and UNREFERENCED (R137 to R139, R142). -/
def State.stopFlooded (s : State) (src : Source) (ch : Option Channel) : State :=
  { s with
    seq := s.seq.flushed .tripping (if s.seq.state.isScan then some .tripped else s.seq.lastEnd)
    power := s.power.off
    travel := s.travel.orderStopping
    quench := (s.quench.floodOrder s.cfg.quench).discard false
    trip := { s.trip with
      latch := true, record := some (s.newRecord src ch), response := some .stopFlood,
      responseDone := false, trailsSeen := false, stoppedSeen := s.travel.stopped,
      floodSeen := false }
    zones := s.zones.onOpen OpenRecord.noZone
    link := (s.link.placeNotice (.trip src ch)).placeNotice (.state .tripping .trip (some src)) }

/-- TRIPPING goes on while the flood-complete report is awaited (R142). -/
theorem State.tripProgress_floods (s : State) (hr : s.trip.response = some .stopFlood)
    (hf : s.trip.floodSeen = false) : s.tripProgress = s := by
  unfold State.tripProgress TripUnit.done
  simp [hr, hf]

theorem State.latchingTrip_stopFlood (s : State) (src : Source) (ch : Option Channel)
    (hrest : s.seq.state.isRest = false) (hr : s.chosenResponse src = .stopFlood) :
    s.latchingTrip src ch = s.stopFlooded src ch := by
  have kept := (s.quench.floodOrder_kept s.cfg.quench).2
  unfold State.latchingTrip
  simp only [hrest, hr, Bool.false_eq_true, if_false]
  rw [State.tripProgress_floods _ (by simp [State.orderResponse, State.stopFloodResponse])
    (by simp [State.orderResponse, State.stopFloodResponse]), State.tripOrders_stopFlood]
  unfold State.orderResponse State.stopFloodResponse State.stopFlooded
  apply State.eq_of_blocks <;> simp [kept]
  rfl

/-- TRAIL_FULL takes STOP_FLOOD in every state (R131, R137). -/
theorem State.chosenResponse_trailFull (s : State) : s.chosenResponse .trailFull = .stopFlood := rfl

/-! ### A trail without room (R96) -/

/-- A trail change that sets a TRAIL_FULL mark trips when nothing has tripped before (R96, R137). -/
theorem State.onTrails_full (s : State) (f : Quench → Quench) (hrest : s.seq.state.isRest = false)
    (hl : s.trip.latch = false) (h : s.quench.trailFull = false)
    (h' : (f s.quench).trailFull = true) :
    s.onTrails f = (s.onQuench f).stopFlooded .trailFull none := by
  unfold State.onTrails State.raiseIf State.raise
  dsimp only
  rw [State.onQuench_quench, h', h, if_pos (by decide)]
  have hc : (s.onQuench f).classOf .trailFull = .trip := rfl
  rw [hc]
  dsimp only
  rw [State.onQuench_trip, hl]
  exact State.latchingTrip_stopFlood _ _ _ hrest (State.chosenResponse_trailFull _)

/-- A request for the other state, beyond the last of 16 entries, is lost with the mark set (R95, R96). -/
theorem Quench.request_full (q : Quench) (d : Dir) (r : Ring) (on : Bool) (p : Int) (e : TrailEntry)
    (hn : (q.trail.get r).entries.length = 16) (he : (q.trail.get r).entries.getLast? = some e)
    (hon : e.on ≠ on) (hb : d.beyond p e.pos = true) :
    ((q.request (some d) r on p).trail.get r).fullMark = true := by
  have hlast : q.lastState r ≠ on := by
    unfold Quench.lastState
    rw [he]
    exact hon
  unfold Quench.request Trail.place
  rw [if_neg hlast, PerRing.get_set_self, he]
  dsimp only
  rw [if_pos hb]
  unfold Trail.append
  rw [if_neg (by rw [hn]; decide)]

/-- Of two requests, one for each ring, one is lost (R96). -/
theorem Quench.requests_full (q : Quench) (d : Dir) (r : Ring) (on : PerRing Bool) (p : Int)
    (e : TrailEntry) (hn : (q.trail.get r).entries.length = 16)
    (he : (q.trail.get r).entries.getLast? = some e) (hon : e.on ≠ on.get r)
    (hb : d.beyond p e.pos = true) :
    ((q.request (some d) .q1 on.q1 p).request (some d) .q2 on.q2 p).trailFull = true := by
  unfold Quench.trailFull
  rw [Bool.or_eq_true]
  cases r
  case q1 =>
    have other := (q.request (some d) .q1 on.q1 p).request_other (some d) .q2 .q1 on.q2 p (by decide)
    have full := q.request_full d .q1 on.q1 p e hn he hon hb
    rw [← other] at full
    exact .inl full
  case q2 =>
    have other := q.request_other (some d) .q1 .q2 on.q1 p (by decide)
    exact .inr ((q.request (some d) .q1 on.q1 p).request_full d .q2 on.q2 p e (by rw [other]; exact hn)
      (by rw [other]; exact he) hon hb)

/-! ### STOP (R27) -/

/-- The part at the entry to RUNOUT, before the OFF requests (R45). -/
def State.runoutStart (s : State) (c : EndCause) : State :=
  { s with
    seq := s.seq.flushed .runout (some c)
    power := s.power.off
    travel := s.travel.setSpindle 0
    quench := s.unsprayed
    zones := s.zones.onOpen OpenRecord.noZone
    link := (s.link.stated .runout (.scanEnd c)).marked (headMarks s.seq.queue) }

theorem State.runoutEntry_eq (s : State) (c : EndCause) (stop : Option Int) :
    s.runoutEntry c stop =
      ((s.runoutStart c).onTrails (·.offRequests s.seq.passDir (stop.getD s.travel.position))).runoutMotion
        (s.seq.turnPhase == .return) := by
  have start : (((((s.onSeq ({ · with lastEnd := some c })).enter .runout
      (.scanEnd c)).zeroOrder.setSpindle 0).sendMarks (headMarks s.seq.queue)).flush) =
      s.runoutStart c := by
    unfold State.runoutStart
    refine State.eq_of_blocks ?_ ?_ ?_ ?_ ((State.flush_unsprayed _).trans ?_) ?_ ?_ ?_ ?_ ?_ ?_ ?_ <;>
      simp [State.unsprayed] <;> rfl
  unfold State.runoutEntry
  dsimp only
  rw [start, State.runoutStart, (s.travel.setSpindle_same 0).1]
  rfl

/-- Out of RUNOUT a trip leaves no run-out motion to order. -/
theorem State.runoutMotion_other (s : State) (returning : Bool) (h : s.seq.state ≠ .runout) :
    s.runoutMotion returning = s := by
  unfold State.runoutMotion
  rw [if_neg h]

theorem Travel.orderStopping_eq (t : Travel) (h : t.mode ≠ .disabled) :
    t.orderStopping = { t with
      mode := .stopping, targetSpeed := 0, stopPoint := none, dir := none, finish := .none,
      decision := .none } := by
  unfold Travel.orderStopping
  rw [if_neg h]

/-- STOP where a carriage moves without a scan (R27, R62, R63). -/
theorem State.stopMotion_eq (s : State) (h : s.travel.mode ≠ .disabled) :
    s.stopMotion = { s with
      seq := { s.seq with stopTaken := true }
      travel := { s.travel with
        mode := .stopping, targetSpeed := 0, stopPoint := none, dir := none, finish := .none,
        decision := .none, switchFound := false } } := by
  unfold State.stopMotion State.onTravel
  dsimp only
  rw [Travel.orderStopping_eq _ h]
  rfl

/-- A trip with STOP_FLOOD behind a spindle command of 0 and changed trails, told from the state before them (R137 to R139). -/
theorem State.stopFlooded_latched (s : State) (src : Source) (ch : Option Channel) (x : PerRing Trail)
    (z : Zones) (hrest : s.seq.state.isRest = false) :
    Latched s (State.stopFlooded { s with
      travel := s.travel.setSpindle 0, quench := { s.quench with trail := x }, zones := z } src ch)
      src ch := by
  have same := s.travel.setSpindle_same 0
  have speed : (s.travel.setSpindle 0).speed = s.travel.speed := by rw [Travel.setSpindle_eq]
  have brakes : ∀ t : Travel, t.orderStopping.speed = t.speed := fun t => by
    unfold Travel.orderStopping
    split <;> rfl
  refine ⟨rfl, ⟨_, rfl, rfl, rfl, rfl, same.1, speed, rfl, rfl, rfl⟩, ?_, ⟨rfl, rfl, rfl⟩, rfl, rfl,
    ⟨rfl, rfl, rfl, rfl, rfl, rfl, rfl, rfl⟩, rfl, rfl, rfl, rfl, rfl, ?_, ?_, rfl, rfl, rfl, rfl, ?_⟩
  · rw [hrest]
    exact .inl rfl
  · exact (Travel.orders_same _).1.1.trans same.1
  · exact (brakes _).trans speed
  · unfold State.tripTold
    rw [hrest]
    rfl

/-- The orders of that trip (R141, R142). -/
theorem State.stopFlooded_responds (s : State) (src : Source) (ch : Option Channel)
    (x : PerRing Trail) (z : Zones) (hrest : s.seq.state.isRest = false) :
    Responds s (State.stopFlooded { s with
      travel := s.travel.setSpindle 0, quench := { s.quench with trail := x }, zones := z } src ch)
      .stopFlood := by
  obtain ⟨_, _, mode, _, _, _⟩ := s.travel.setSpindle_same 0
  have still : (s.travel.setSpindle 0).still = s.travel.still := by rw [Travel.setSpindle_eq]
  generalize hq : ({ s.quench with trail := x } : Quench) = q
  have owner : q.q3Owner = s.quench.q3Owner := by rw [← hq]
  have circ : q.circuit = s.quench.circuit := by rw [← hq]
  have timer : q.floodTimer = s.quench.floodTimer := by rw [← hq]
  have flood : (q.floodOrder s.cfg.quench).discard false = { q with
      circuit := { (if s.quench.q3Owner = .flood then s.quench.circuit
        else { s.quench.circuit with q3 := s.quench.circuit.q3.opened s.cfg.quench .q3 }) with
          q1 := .closed, q2 := .closed }
      q3Owner := .flood, trail := ⟨.empty, .empty⟩
      floodTimer := if s.quench.q3Owner = .flood then s.quench.floodTimer
        else some s.cfg.quench.flood } := by
    rw [Quench.floodOrder_eq, owner, circ, timer]
    rfl
  unfold Responds State.stopFlooded
  dsimp only
  rw [flood, hrest]
  refine ⟨rfl, ⟨rfl, rfl, rfl⟩, ?_, rfl, fun _ => ?_, rfl, fun hf => ?_, fun hf => ?_⟩
  · intro hm
    rw [Travel.orderStopping_eq _ (by rw [mode]; exact hm)]
    exact ⟨rfl, rfl⟩
  · rw [← still]
    rfl
  · rw [if_pos hf, if_pos hf]
    exact ⟨rfl, rfl⟩
  · rw [if_neg hf, if_neg hf]
    exact ⟨CircuitState.opened_valve _ _ _, rfl⟩

/-- Settles O27: RUNOUT with room, TRAIL_FULL out of it without, the braked motion, and the refusal. -/
theorem stopByState : Obligations.StopByState := by
  refine ⟨fun tag s taken hs htr hroom => ?_, fun tag s r d e taken hs hl hd hf hn he hon hb => ?_,
    fun tag s taken => ⟨fun hs hm => ?_, fun hs => ?_⟩⟩
  · refine ⟨_, ?_, State.runoutEntry_spec _ .stopped none htr hroom⟩
    rw [exec_stop_taken taken]
    unfold State.serveStop State.stopEffect State.stopAnswer
    rw [State.answer_seq, hs]
    rfl
  · intro u
    let v : State := { s with link := s.link.placeReply ⟨0x86#8, tag, .ok, []⟩ }
    have stops : exec (.stop tag) s = .next (v.runoutEntry .stopped none) := by
      rw [exec_stop_taken taken]
      unfold State.serveStop State.stopEffect State.stopAnswer
      rw [State.answer_seq, hs]
      rfl
    have trail : (v.runoutStart .stopped).quench.trail = s.quench.trail := s.unsprayed_rings.1
    have full : ((v.runoutStart .stopped).quench.offRequests (some d) s.travel.position).trailFull =
        true := by
      refine Quench.requests_full _ d r ⟨false, false⟩ s.travel.position e ?_ ?_ ?_ hb
      · rw [trail]; exact hn
      · rw [trail]; exact he
      · cases r <;> simp [PerRing.get, hon]
    have calm : (v.runoutStart .stopped).quench.trailFull = false := by
      unfold Quench.trailFull at hf ⊢
      rw [trail]
      exact hf
    rw [stops, State.runoutEntry_eq, show v.seq.passDir = some d from hd,
      State.onTrails_full (v.runoutStart .stopped) _ rfl hl calm full,
      State.runoutMotion_other _ _ (show SeqState.tripping ≠ .runout by decide)]
    have same := Quench.requests_eq (v.runoutStart .stopped).quench (some d) false false
      s.travel.position
    unfold State.onQuench Quench.offRequests
    dsimp only
    rw [show v.travel.position = s.travel.position from rfl, Option.getD_none, same]
    exact ⟨_, rfl, u.stopFlooded_latched .trailFull none _ _ rfl,
      u.stopFlooded_responds .trailFull none _ _ rfl⟩
  · rw [exec_stop_taken taken]
    unfold State.serveStop State.stopEffect State.stopAnswer
    rw [State.answer_seq]
    rcases hs with hs | hs <;> rw [hs] <;>
      exact congrArg Host.Outcome.next (State.stopMotion_eq _ hm)
  · rw [exec_stop_taken taken]
    unfold State.serveStop State.stopEffect State.stopAnswer
    rw [State.answer_seq]
    simp only [List.mem_cons, List.not_mem_nil, or_false] at hs
    rcases hs with hs | hs | hs | hs | hs <;> rw [hs] <;> rfl

end Sys2Proof.Machine

namespace Sys2Proof.Machine

/-! ### A step end with the generator in SEEK (R35, R46, R51, R62)

A run-out complete at its entry keeps the mode in force, and so says `EnteredRunout` of a step end found by a sample. The test of
SEEK comes before it in the sample and is on the generator's mode alone, so that in RUNNING with the generator in SEEK, which no run
gives, the reference switch orders STOPPING first. -/

/-- A MOVE that ends where the carriage stands. -/
def moveToOrigin : Admitted :=
  { step := .move 0 100 .keep .keep, origin := .profile, index := 0, start := -1, stop := 0,
    dir := some .forward, turn := false, marks := [] }

/-- RUNNING at the end of its last step, the carriage at rest with empty trails, the generator in SEEK. -/
def seekingAtEnd : State :=
  { State.reset with
    seq := { Seq.reset with state := .running, active := some moveToOrigin }
    travel := { Travel.reset with mode := .seek, driveEnable := true, referenced := true } }

/-- The sample that finds the reference switch and no movement. -/
def switchSample : Instr := .positionSample 0 0 true false false

/-- The state behind it. -/
def seekingEnded : State := seekingAtEnd.positionSample ⟨0, 0, true, false, false⟩

theorem exec_switchSample : exec switchSample seekingAtEnd = .next seekingEnded := rfl

theorem seekingEnded_none_raised : NoneRaised seekingAtEnd seekingEnded := by
  unfold NoneRaised
  decide

theorem seekingAtEnd_trails : TrailInv seekingAtEnd := by
  intro r
  cases r <;> decide

/-- The run-out is complete at once, yet the mode has changed. -/
theorem seekingEnded_outcome : seekingEnded.seq.state = .idle ∧ seekingEnded.travel.still = 20 ∧
    seekingEnded.quench.trailsEmpty = true ∧ seekingAtEnd.travel.mode = .seek ∧
    seekingEnded.travel.mode = .stopping := by
  decide

/-- Refutes O51: from `seekingAtEnd` the sample's run-out is complete at once and leaves the generator in STOPPING, where
`EnteredRunout` has it stay in SEEK. -/
theorem not_stepTimerTicks : ¬ Obligations.StepTimerTicks := by
  rintro ⟨samples, _⟩
  obtain ⟨_, still, empty, seeks, stops⟩ := seekingEnded_outcome
  obtain ⟨_, _, _, ends, _⟩ := samples 0 0 true false false seekingAtEnd seekingEnded moveToOrigin
    .forward exec_switchSample seekingEnded_none_raised rfl rfl rfl rfl rfl (by decide)
    ⟨by decide, by decide⟩
  obtain ⟨_, _, _, _, _, _, _, _, _, keepsMode, _⟩ := ends rfl nofun seekingAtEnd_trails
  have kept : seekingEnded.travel.mode = seekingAtEnd.travel.mode := keepsMode ⟨empty, rfl, still⟩
  rw [stops, seeks] at kept
  cases kept

end Sys2Proof.Machine

namespace Sys2Proof.Machine

/-! ### Zone windows (R18) -/

theorem Window.ofRecord_density (w : WindowRecord) (h : w.kind = 1) :
    Window.ofRecord w =
      if w.low ≤ 100000 ∧ w.high ≤ 100000 ∧ (w.high = 0 ∨ w.low ≤ w.high)
      then some ⟨.density, w.low, w.high⟩ else none := by
  unfold Window.ofRecord
  rw [h]
  simp [and_assoc]

theorem Window.ofRecord_total (w : WindowRecord) (h : w.kind = 2) :
    Window.ofRecord w =
      if w.low ≤ 1000000 ∧ w.high ≤ 1000000 ∧ (w.high = 0 ∨ w.low ≤ w.high)
      then some ⟨.total, w.low, w.high⟩ else none := by
  unfold Window.ofRecord
  rw [h]
  simp [and_assoc]

theorem Window.ofRecord_unknown (w : WindowRecord) (h1 : w.kind ≠ 1) (h2 : w.kind ≠ 2) :
    Window.ofRecord w = none := by
  unfold Window.ofRecord
  split
  · exact absurd ‹_› h1
  · exact absurd ‹_› h2
  · rfl

/-! ### The check of a PROFILE-DATA request (R174, R175) -/

theorem DataRecord.check_zone (h : Header) (i : Nat) (w : WindowRecord) :
    DataRecord.check h (.zone i w) =
      if h.zones ≤ i then some .range
      else if (Window.ofRecord w).isSome = true then none else some .invalid := by
  unfold DataRecord.check
  dsimp only
  cases Window.ofRecord w <;> rfl

theorem DataRecord.check_step (h : Header) (i : Nat) (r : StepRecord) :
    (h.steps ≤ i → DataRecord.check h (.step i r) = some .range) ∧
      (¬h.steps ≤ i → (∃ st, ScanStep.ofRecord r = some st ∧ st ≠ .resume ∧ st ≠ .finish) →
        DataRecord.check h (.step i r) = none) ∧
      (¬h.steps ≤ i → ¬(∃ st, ScanStep.ofRecord r = some st ∧ st ≠ .resume ∧ st ≠ .finish) →
        DataRecord.check h (.step i r) = some .invalid) := by
  unfold DataRecord.check
  dsimp only
  refine ⟨fun hi => if_pos hi, fun hi ⟨st, hst, hr, hf⟩ => ?_, fun hi hn => ?_⟩
  · rw [if_neg hi, hst]
    dsimp only
    rw [if_neg]
    exact fun hc => ((ScanStep.closes_iff st).1 hc).elim hr hf
  · rw [if_neg hi]
    cases hst : ScanStep.ofRecord r with
    | none => rfl
    | some st =>
      dsimp only
      rw [if_pos]
      by_contra hc
      rw [ScanStep.closes_iff, not_or] at hc
      exact hn ⟨st, hst, hc⟩

/-- The first failing record and its position (R175). -/
theorem firstFailure_found (h : Header) (good rest : List DataRecord) (bad : DataRecord)
    (code : ResultCode) (hg : ∀ r ∈ good, DataRecord.check h r = none)
    (hb : DataRecord.check h bad = some code) (n : Nat) :
    firstFailure h n (good ++ bad :: rest) = some (code, n + good.length) := by
  induction good generalizing n with
  | nil =>
    rw [List.nil_append, firstFailure, hb]
    rfl
  | cons r good ih =>
    rw [List.forall_mem_cons] at hg
    rw [List.cons_append, firstFailure, hg.1]
    dsimp only
    rw [ih hg.2, List.length_cons, Nat.add_assoc, Nat.add_comm 1]

theorem firstFailure_none (h : Header) (rs : List DataRecord)
    (hg : ∀ r ∈ rs, DataRecord.check h r = none) (n : Nat) : firstFailure h n rs = none := by
  induction rs generalizing n with
  | nil => rfl
  | cons r rs ih =>
    rw [List.forall_mem_cons] at hg
    rw [firstFailure, hg.1]
    exact ih hg.2 _

theorem Store.isFirst_iff (st : Store) (page : Nat) (state : PageState) :
    st.isFirst page state = true ↔
      page < 16 ∧ (st.page page).state = state ∧ (st.page page).owner = some page := by
  unfold Store.isFirst
  simp only [Bool.and_eq_true, decide_eq_true_eq, beq_iff_eq, and_assoc]
  rfl

/-- A failed check is no OK. -/
theorem DataRecord.check_ne_ok (h : Header) (r : DataRecord) (c : ResultCode)
    (hc : DataRecord.check h r = some c) : c ≠ .ok := by
  rintro rfl
  cases r <;> unfold DataRecord.check at hc <;> dsimp only at hc <;> repeat' split at hc
  all_goals cases hc

/-- The answers to PROFILE-DATA: no OPEN profile, no record, a failing record, and OK (R174, R175). -/
theorem Store.dataResult_state (st : Store) (page : Nat) (rs : List DataRecord)
    (h : st.isFirst page .opened = false) : st.dataResult page rs = (.state, []) := by
  unfold Store.dataResult
  rw [h]
  rfl

theorem Store.dataResult_empty (st : Store) (page : Nat) (h : st.isFirst page .opened = true) :
    st.dataResult page [] = (.invalid, []) := by
  unfold Store.dataResult
  rw [if_pos h]
  rfl

theorem Store.dataResult_fails (st : Store) (page : Nat) (good rest : List DataRecord)
    (bad : DataRecord) (code : ResultCode) (h : st.isFirst page .opened = true)
    (hg : ∀ r ∈ good, DataRecord.check (st.header page) r = none)
    (hb : DataRecord.check (st.header page) bad = some code) :
    st.dataResult page (good ++ bad :: rest) = (code, [byteOf (good.length + 1)]) := by
  unfold Store.dataResult
  rw [if_pos h, if_neg (by simp), firstFailure_found _ good rest bad code hg hb 1, Nat.add_comm 1]

theorem Store.dataResult_ok (st : Store) (page : Nat) (rs : List DataRecord)
    (h : st.isFirst page .opened = true) (hne : rs ≠ [])
    (hg : ∀ r ∈ rs, DataRecord.check (st.header page) r = none) :
    st.dataResult page rs = (.ok, [0#8]) := by
  unfold Store.dataResult
  rw [if_pos h, if_neg (by simpa using hne), firstFailure_none _ rs hg]

/-- A PROFILE-DATA that is not answered OK is only answered (R175). -/
theorem State.serveData_refused (s : State) (tag : Byte) (page : Nat) (rs : List DataRecord)
    (c : ResultCode) (bytes : List Byte) (ha : s.store.dataResult page rs = (c, bytes))
    (hn : c ≠ .ok) : s.serveData tag page rs = s.replied 0x91#8 tag c bytes := by
  unfold State.serveData
  rw [ha]
  exact if_neg hn

/-- One answered OK is written (R175). -/
theorem State.serveData_accepted (s : State) (tag : Byte) (page : Nat) (rs : List DataRecord)
    (ha : s.store.dataResult page rs = (.ok, [0#8])) :
    s.serveData tag page rs =
      (s.answer 0x11#8 tag (.ok, [0#8])).onStore (·.writeRecords page rs) := by
  unfold State.serveData
  rw [ha]
  exact if_pos rfl

/-! ### Writing one record (R19, R175) -/

/-- What a record does to page `k` of the store: its window to the first page, its step to its slot. -/
def DataRecord.writePage (page : Nat) (r : DataRecord) (k : Nat) (pg : Page) : Page :=
  match r with
  | .zone i w => if k = page then { pg with windows := pg.windows.set i (Window.ofRecord w) } else pg
  | .step i x =>
    if k = page + i / 40 then { pg with slots := pg.slots.set (i % 40) (ScanStep.ofRecord x) } else pg

/-- The zone index a record names, and the step index. -/
def DataRecord.namesZone (i : Nat) : DataRecord → Bool
  | .zone k _ => k == i
  | .step _ _ => false

def DataRecord.namesStep (i : Nat) : DataRecord → Bool
  | .zone _ _ => false
  | .step k _ => k == i

theorem Store.writeRecord_page (st : Store) (page : Nat) (r : DataRecord) (k : Nat)
    (hk : k < st.pages.length) :
    (st.writeRecord page r).page k = DataRecord.writePage page r k (st.page k) := by
  cases r
  case zone i w => exact st.page_mapPages _ k hk
  case step i x => exact st.page_mapPages _ k hk

theorem Store.writeRecord_length (st : Store) (page : Nat) (r : DataRecord) :
    (st.writeRecord page r).pages.length = st.pages.length := by
  cases r <;> exact st.mapPages_length _

theorem Store.writeRecord_inUse (st : Store) (page : Nat) (r : DataRecord) :
    (st.writeRecord page r).inUse = st.inUse := by
  cases r <;> rfl

theorem Store.writeRecord_zoneMarks (st : Store) (page : Nat) (r : DataRecord) (i : Nat)
    (hi : i < st.zoneMarks.length) :
    (st.writeRecord page r).zoneMarks.length = st.zoneMarks.length ∧
      (st.writeRecord page r).zoneMarks.getD i false =
        (st.zoneMarks.getD i false || DataRecord.namesZone i r) := by
  cases r
  case zone k w =>
    refine ⟨List.length_set, ?_⟩
    by_cases h : k = i <;> simp [Store.writeRecord, Store.mapPages, DataRecord.namesZone, h, hi]
  case step k x => exact ⟨rfl, (Bool.or_false _).symm⟩

theorem Store.writeRecord_stepMarks (st : Store) (page : Nat) (r : DataRecord) (i : Nat)
    (hi : i < st.stepMarks.length) :
    (st.writeRecord page r).stepMarks.length = st.stepMarks.length ∧
      (st.writeRecord page r).stepMarks.getD i false =
        (st.stepMarks.getD i false || DataRecord.namesStep i r) := by
  cases r
  case zone k w => exact ⟨rfl, (Bool.or_false _).symm⟩
  case step k x =>
    refine ⟨List.length_set, ?_⟩
    by_cases h : k = i <;> simp [Store.writeRecord, Store.mapPages, DataRecord.namesStep, h, hi]

/-! ### Writing a request's records in order (R175) -/

/-- What every record of the request leaves alone, the request leaves alone. -/
theorem Store.writeRecords_keep {α : Type} (f : Store → α) (page : Nat) (rs : List DataRecord)
    (hf : ∀ (st : Store) (r : DataRecord), st.pages.length = 16 → r ∈ rs →
      f (st.writeRecord page r) = f st) (st : Store) (h : st.pages.length = 16) :
    f (st.writeRecords page rs) = f st := by
  unfold Store.writeRecords
  induction rs generalizing st with
  | nil => rfl
  | cons r rs ih =>
    rw [List.foldl_cons, ih (fun st x hs hx => hf st x hs (List.mem_cons_of_mem _ hx)) _
      ((st.writeRecord_length page r).trans h), hf st r h List.mem_cons_self]

theorem Store.writeRecords_length (st : Store) (page : Nat) (rs : List DataRecord)
    (h : st.pages.length = 16) : (st.writeRecords page rs).pages.length = 16 :=
  (Store.writeRecords_keep (·.pages.length) page rs (fun st r _ _ => st.writeRecord_length page r) st
    h).trans h

/-- Page by page, what every record leaves alone the request leaves alone. -/
theorem Store.writeRecords_page {α : Type} (f : Page → α) (page k : Nat) (hk : k < 16)
    (rs : List DataRecord)
    (hf : ∀ (r : DataRecord) (pg : Page), r ∈ rs → f (DataRecord.writePage page r k pg) = f pg)
    (st : Store) (h : st.pages.length = 16) : f ((st.writeRecords page rs).page k) = f (st.page k) :=
  Store.writeRecords_keep (fun st => f (st.page k)) page rs (fun st r hs hr => by
    rw [st.writeRecord_page page r k (by omega), hf r _ hr]) st h

/-- Page state, owner and header, and the numbers of slots and window places: what PROFILE-DATA leaves of a page (R170, R173). -/
def Page.shape (pg : Page) : PageState × Option Nat × Option Header × Nat × Nat :=
  (pg.state, pg.owner, pg.header, pg.slots.length, pg.windows.length)

theorem DataRecord.writePage_shape (page : Nat) (r : DataRecord) (k : Nat) (pg : Page) :
    (DataRecord.writePage page r k pg).shape = pg.shape := by
  unfold DataRecord.writePage Page.shape
  cases r <;> dsimp only <;> split <;> simp

theorem Store.writeRecords_shape (st : Store) (page k : Nat) (hk : k < 16) (rs : List DataRecord)
    (h : st.pages.length = 16) :
    let pg := (st.writeRecords page rs).page k
    (pg.state = (st.page k).state ∧ pg.owner = (st.page k).owner ∧
      pg.header = (st.page k).header) ∧
      pg.slots.length = (st.page k).slots.length ∧
      pg.windows.length = (st.page k).windows.length := by
  have same := Store.writeRecords_page Page.shape page k hk rs
    (fun r pg _ => DataRecord.writePage_shape page r k pg) st h
  simp only [Page.shape, Prod.mk.injEq] at same
  obtain ⟨hstate, howner, hheader, hslots, hplaces⟩ := same
  exact ⟨⟨hstate, howner, hheader⟩, hslots, hplaces⟩

/-- A slot that no record of the request names stays (R175). -/
theorem Store.writeRecords_slot (st : Store) (page k j : Nat) (hk : k < 16) (rs : List DataRecord)
    (hr : ∀ i r, DataRecord.step i r ∈ rs → ¬(k = page + i / 40 ∧ j = i % 40))
    (h : st.pages.length = 16) :
    ((st.writeRecords page rs).page k).slots.getD j none = (st.page k).slots.getD j none := by
  refine Store.writeRecords_page (·.slots.getD j none) page k hk rs (fun r pg hm => ?_) st h
  cases r
  case zone i w => unfold DataRecord.writePage; dsimp only; split <;> rfl
  case step i x =>
    unfold DataRecord.writePage
    dsimp only
    split
    · rename_i hki
      have hne : i % 40 ≠ j := fun hj => hr i x hm ⟨hki, hj.symm⟩
      simp [hne]
    · rfl

/-- A window place that no record of the request names stays, and so does every place of another page (R175). -/
theorem Store.writeRecords_window (st : Store) (page k j : Nat) (hk : k < 16) (rs : List DataRecord)
    (hr : k = page → ∀ w, DataRecord.zone j w ∉ rs) (h : st.pages.length = 16) :
    ((st.writeRecords page rs).page k).windows.getD j none = (st.page k).windows.getD j none := by
  refine Store.writeRecords_page (·.windows.getD j none) page k hk rs (fun r pg hm => ?_) st h
  cases r
  case step i x => unfold DataRecord.writePage; dsimp only; split <;> rfl
  case zone i w =>
    unfold DataRecord.writePage
    dsimp only
    split
    · rename_i hkp
      have hne : i ≠ j := by rintro rfl; exact hr hkp w hm
      simp [hne]
    · rfl

theorem Store.writeRecords_windows (st : Store) (page k : Nat) (hk : k < 16) (hp : k ≠ page)
    (rs : List DataRecord) (h : st.pages.length = 16) :
    ((st.writeRecords page rs).page k).windows = (st.page k).windows := by
  refine Store.writeRecords_page (·.windows) page k hk rs (fun r pg hm => ?_) st h
  cases r <;> unfold DataRecord.writePage <;> dsimp only
  · rw [if_neg hp]
  · split <;> rfl

/-- The records up to one, that one, and those behind it. -/
theorem Store.writeRecords_split (st : Store) (page : Nat) (before after : List DataRecord)
    (r : DataRecord) :
    st.writeRecords page (before ++ r :: after) =
      ((st.writeRecords page before).writeRecord page r).writeRecords page after := by
  simp [Store.writeRecords]

/-- The last record of a step index stands in its slot (R19, R175). -/
theorem Store.writeRecords_stepAt (st : Store) (page i : Nat) (hk : page + i / 40 < 16)
    (before after : List DataRecord) (r : StepRecord)
    (hlast : ∀ r', DataRecord.step i r' ∉ after) (h : st.pages.length = 16)
    (hslots : (st.page (page + i / 40)).slots.length = 40) :
    (st.writeRecords page (before ++ .step i r :: after)).stepAt page i = ScanStep.ofRecord r := by
  have hlen := st.writeRecords_length page before h
  obtain ⟨_, sameSlots, _⟩ := st.writeRecords_shape page (page + i / 40) hk before h
  have hs := sameSlots.trans hslots
  rw [Store.writeRecords_split]
  unfold Store.stepAt pageSlots
  rw [Store.writeRecords_slot _ page _ _ hk after _ (by rw [Store.writeRecord_length]; exact hlen),
    Store.writeRecord_page _ _ _ _ (by rw [hlen]; exact hk)]
  · unfold DataRecord.writePage
    dsimp only
    rw [if_pos rfl]
    have hj : i % 40 < 40 := Nat.mod_lt _ (by decide)
    simp [hs, hj]
  · rintro i' r' hm ⟨h1, h2⟩
    have : i' = i := by omega
    exact hlast r' (this ▸ hm)

/-- The last record of a zone index stands in its place (R171, R175). -/
theorem Store.writeRecords_windowAt (st : Store) (page i : Nat) (hk : page < 16) (hi : i < 16)
    (before after : List DataRecord) (w : WindowRecord)
    (hlast : ∀ w', DataRecord.zone i w' ∉ after) (h : st.pages.length = 16)
    (hplaces : (st.page page).windows.length = 16) :
    ((st.writeRecords page (before ++ .zone i w :: after)).page page).windows.getD i none =
      Window.ofRecord w := by
  have hlen := st.writeRecords_length page before h
  obtain ⟨_, _, samePlaces⟩ := st.writeRecords_shape page page hk before h
  have hs := samePlaces.trans hplaces
  rw [Store.writeRecords_split, Store.writeRecords_window _ page _ _ hk after (fun _ => hlast)
    (by rw [Store.writeRecord_length]; exact hlen),
    Store.writeRecord_page _ _ _ _ (by rw [hlen]; exact hk)]
  unfold DataRecord.writePage
  dsimp only
  rw [if_pos rfl]
  simp [hs, hi]

/-- Every named zone is marked besides those marked (R175). -/
theorem Store.writeRecords_zoneMarks (st : Store) (page : Nat) (rs : List DataRecord) (i : Nat)
    (hi : i < st.zoneMarks.length) :
    (st.writeRecords page rs).zoneMarks.getD i false =
      (st.zoneMarks.getD i false || rs.any (DataRecord.namesZone i)) := by
  unfold Store.writeRecords
  induction rs generalizing st with
  | nil => simp
  | cons r rs ih =>
    obtain ⟨hl, hm⟩ := st.writeRecord_zoneMarks page r i hi
    rw [List.foldl_cons, ih _ (by rw [hl]; exact hi), hm, List.any_cons, Bool.or_assoc]

theorem Store.writeRecords_stepMarks (st : Store) (page : Nat) (rs : List DataRecord) (i : Nat)
    (hi : i < st.stepMarks.length) :
    (st.writeRecords page rs).stepMarks.getD i false =
      (st.stepMarks.getD i false || rs.any (DataRecord.namesStep i)) := by
  unfold Store.writeRecords
  induction rs generalizing st with
  | nil => simp
  | cons r rs ih =>
    obtain ⟨hl, hm⟩ := st.writeRecord_stepMarks page r i hi
    rw [List.foldl_cons, ih _ (by rw [hl]; exact hi), hm, List.any_cons, Bool.or_assoc]

/-- A profile's pages all lie in the store (R170). -/
theorem StoreInv.page_lt {st : Store} (h : StoreInv st) {page i : Nat} (hp : page < 16)
    (ho : (st.page page).owner = some page) (hi : i < 40 * (st.header page).size) :
    page + i / 40 < 16 := by
  obtain ⟨_, _, _, _, _, owned, _⟩ := h
  obtain ⟨hsize, halign, _⟩ := owned page hp page hp ho
  simp only [List.contains_eq_mem, List.mem_cons, List.not_mem_nil, or_false, decide_eq_true_eq]
    at hsize
  rcases hsize with hs | hs | hs | hs <;> rw [hs] at hi halign <;> omega

/-- Settles O37: the window's bounds, the record's check, the refusals, and what an accepted request writes. -/
theorem profileDataWrites : Obligations.ProfileDataWrites := by
  refine ⟨fun w => ?_, fun h r => ?_, ?_⟩
  · intro bounded
    refine ⟨fun hk hb => ?_, fun hk hb => ?_, fun h1 h2 => ?_⟩
    · rw [Window.ofRecord_density w hk, if_pos hb]
    · rw [Window.ofRecord_total w hk, if_pos hb]
    · by_cases hk1 : w.kind = 1
      · rw [Window.ofRecord_density w hk1, if_neg (h1.resolve_left fun hn => hn hk1)]
      by_cases hk2 : w.kind = 2
      · rw [Window.ofRecord_total w hk2, if_neg (h2.resolve_left fun hn => hn hk2)]
      exact Window.ofRecord_unknown w hk1 hk2
  · cases r
    case zone i w =>
      intro beyond legal
      rw [DataRecord.check_zone]
      exact ⟨fun hb => if_pos hb, fun hb hl => (if_neg hb).trans (if_neg hl),
        fun hb hl => (if_neg hb).trans (if_pos hl)⟩
    case step i x =>
      obtain ⟨range, passes, invalid⟩ := DataRecord.check_step h i x
      exact ⟨range, invalid, passes⟩
  · intro tag s page rs taken inv c h isOpen
    have first : isOpen → s.store.isFirst page .opened = true := (s.store.isFirst_iff page _).2
    have refuse : ∀ code bytes, s.store.dataResult page rs = (code, bytes) → code ≠ .ok →
        exec c s = .next (s.replied 0x91#8 tag code bytes) := fun code bytes ha hn => by
      rw [exec_profileData_taken page rs taken, s.serveData_refused tag page rs code bytes ha hn]
    refine ⟨fun ho => ?_, fun ho hrs => ?_, fun ho good bad rest code hrs hg hb => ?_,
      fun ho hne hg => ?_⟩
    · refine refuse _ _ (s.store.dataResult_state page rs ?_) (by decide)
      exact Bool.eq_false_iff.2 fun hf => ho ((s.store.isFirst_iff page _).1 hf)
    · refine refuse _ _ ?_ (by decide)
      rw [hrs, s.store.dataResult_empty page (first ho)]
    · refine refuse _ _ ?_ (DataRecord.check_ne_ok h bad code hb)
      rw [hrs, s.store.dataResult_fails page good rest bad code (first ho) hg hb]
    · have written := s.serveData_accepted tag page rs
        (s.store.dataResult_ok page rs (first ho) hne hg)
      obtain ⟨hp, _, howner⟩ := ho
      have within := fun i => inv.page_lt (i := i) hp howner
      obtain ⟨hlen, hsizes, hzm, hsm, _⟩ := inv
      refine ⟨_, (exec_profileData_taken page rs taken).trans (congrArg _ written), rfl,
        fun i hi => ?_, fun i hi => ?_, fun i hi => (s.store.writeRecords_shape page i hi rs hlen).1,
        fun i hi => ⟨?_, fun hno => ?_⟩, fun i hi => ⟨?_, fun hno => ?_⟩,
        fun k hk => ⟨fun hkp => ?_, fun j hno => ?_⟩, ?_, by simp [Keeps]⟩
      · exact s.store.writeRecords_zoneMarks page rs i (hzm ▸ hi)
      · exact s.store.writeRecords_stepMarks page rs i (hsm ▸ hi)
      · rintro before r after rfl hlast
        exact s.store.writeRecords_stepAt page i (within i hi) before after r hlast hlen
          (hsizes _ (within i hi)).1
      · refine s.store.writeRecords_slot page _ _ (within i hi) rs ?_ hlen
        rintro i' r hm ⟨h1, h2⟩
        have hslot : i % 40 = i' % 40 := h2
        have : i' = i := by omega
        exact hno r (this ▸ hm)
      · rintro before w after rfl hlast
        exact s.store.writeRecords_windowAt page i hp hi before after w hlast hlen (hsizes _ hp).2
      · exact s.store.writeRecords_window page page i hp rs (fun _ => hno) hlen
      · exact s.store.writeRecords_windows page k hk hkp rs hlen
      · exact s.store.writeRecords_slot page k j hk rs hno hlen
      · exact Store.writeRecords_keep (·.inUse) page rs (fun st r _ _ => st.writeRecord_inUse page r)
          _ hlen

end Sys2Proof.Machine

namespace Sys2Proof.Machine

/-! ### The orders a latching trip starts with (R137 to R139) -/

/-- The quench state behind the first orders of a trip: a flood takes Q3 over as it stands, else a SPRAY step that leaves Active closes
it (R102, R139, R142). -/
def State.tripQuench (s : State) (r : Response) : Quench :=
  if r = .stopFlood then s.quench.floodOrder s.cfg.quench else s.unsprayed

/-- The part behind a latching trip's record and first orders, in a Sequencer state and with its response in force (R137 to R139). -/
def State.tripBase (s : State) (src : Source) (ch : Option Channel) (r : Response) (st : SeqState) :
    State :=
  { s with
    seq := s.seq.flushed st (if s.seq.state.isScan then some .tripped else s.seq.lastEnd)
    power := s.power.off
    quench := s.tripQuench r
    trip := { s.trip with
      latch := true, record := some (s.newRecord src ch), response := some r, responseDone := false,
      trailsSeen := false, stoppedSeen := false, floodSeen := false }
    zones := s.zones.onOpen OpenRecord.noZone }

/-- The orders that the other responses start with (R139). -/
theorem State.tripOrders_other (s : State) (r : Response) (hr : r ≠ .stopFlood) :
    s.tripOrders r = { s with
      seq := s.seq.flushed s.seq.state
        (if s.seq.state.isScan then some .tripped else s.seq.lastEnd)
      power := s.power.off
      quench := s.unsprayed
      zones := s.zones.onOpen OpenRecord.noZone } := by
  unfold State.tripOrders
  dsimp only
  rw [if_neg hr]
  cases s.seq.state.isScan <;>
    refine State.eq_of_blocks ?_ ?_ ?_ ?_ ((State.flush_unsprayed _).trans ?_) ?_ ?_ ?_ ?_ ?_ ?_ ?_ <;>
    simp [State.unsprayed] <;> rfl

/-- Record, first orders and response of a latching trip are `tripBase` (R137 to R139). -/
theorem State.tripOrders_respond (s : State) (src : Source) (ch : Option Channel) (r : Response)
    (st : SeqState) :
    (((s.onTrip ({ · with latch := true, record := some (s.newRecord src ch) })).tripOrders r).onSeq
      ({ · with state := st })).respond r = s.tripBase src ch r st := by
  unfold State.tripBase State.tripQuench
  by_cases hr : r = .stopFlood
  · subst hr
    rw [State.tripOrders_stopFlood, if_pos rfl]
    rfl
  · rw [State.tripOrders_other _ r hr, if_neg hr]
    rfl

/-- A flood in force stands already when STOP_FLOOD orders it (R103). -/
theorem State.tripBase_flood (s : State) (src : Source) (ch : Option Channel) (st : SeqState) :
    (s.tripBase src ch .stopFlood st).flood = s.tripBase src ch .stopFlood st := by
  have kept := (s.quench.floodOrder_kept s.cfg.quench).2
  unfold State.flood State.onQuench State.tripBase State.tripQuench
  simp only [if_pos, kept]

/-- A latching trip outside IDLE and UNREFERENCED, before its response is looked at for completion (R137 to R143). -/
def State.tripMoving (s : State) (src : Source) (ch : Option Channel) : State :=
  let b := s.tripBase src ch (s.chosenResponse src) .tripping
  let u := match s.chosenResponse src with
    | .runout => b.runoutResponse
    | .stop | .stopFlood => (b.discard false).stopCarriage
    | .halt => b.haltOrders
  (u.notify (.trip src ch)).notify (.state .tripping .trip (some src))

/-- A latching trip in IDLE and UNREFERENCED, before TRIPPED is entered (R145). -/
def State.tripResting (s : State) (src : Source) (ch : Option Channel) : State :=
  let b := s.tripBase src ch (s.chosenResponse src) s.seq.state
  let u := match s.chosenResponse src with
    | .runout => b
    | .stop | .stopFlood => b.discard false
    | .halt => b.haltOrders
  u.notify (.trip src ch)

theorem State.latchingTrip_moving (s : State) (src : Source) (ch : Option Channel)
    (h : s.seq.state.isRest = false) : s.latchingTrip src ch = (s.tripMoving src ch).tripProgress := by
  have base := s.tripOrders_respond src ch (s.chosenResponse src) .tripping
  unfold State.latchingTrip State.tripMoving
  simp only [h, Bool.false_eq_true, if_false]
  congr 3
  cases hr : s.chosenResponse src <;> rw [hr] at base <;> dsimp only [State.orderResponse]
  · rw [← base]
    rfl
  · unfold State.stopResponse
    rw [base]
  · unfold State.stopFloodResponse
    rw [base, State.tripBase_flood]
  · unfold State.haltResponse
    rw [base]

theorem State.latchingTrip_resting (s : State) (src : Source) (ch : Option Channel)
    (h : s.seq.state.isRest = true) : s.latchingTrip src ch = (s.tripResting src ch).enterTripped := by
  have base : ((s.onTrip ({ · with latch := true, record := some (s.newRecord src ch) })).tripOrders
      (s.chosenResponse src)).respond (s.chosenResponse src) =
        s.tripBase src ch (s.chosenResponse src) s.seq.state := by
    rw [← s.tripOrders_respond src ch (s.chosenResponse src) s.seq.state]
    unfold State.tripOrders
    dsimp only
    split <;> split <;> exact State.eq_of_blocks (by simp) (by simp) (by simp) (by simp) (by simp)
      (by simp) (by simp) (by simp) (by simp) (by simp) (by simp) (by simp)
  unfold State.latchingTrip State.tripResting State.orderAtRest
  simp only [h, if_true]
  rw [base]
  cases hr : s.chosenResponse src <;> dsimp only
  rw [State.tripBase_flood]

end Sys2Proof.Machine

namespace Sys2Proof.Machine

/-! ### The orders of a response (R140 to R143) -/

/-- Orders to the generator and the spindle leave what the sample measured (R48, R49). -/
theorem Travel.orders_measured (t : Travel) :
    (t.orderStopping.position = t.position ∧ t.orderStopping.speed = t.speed) ∧
      (∀ d v, (t.orderDrain d v).position = t.position ∧ (t.orderDrain d v).speed = t.speed) ∧
      (∀ r, (t.setSpindle r).position = t.position ∧ (t.setSpindle r).speed = t.speed) ∧
      t.orderDisabled.position = t.position ∧ t.orderDisabled.speed = t.speed := by
  have stops : t.orderStopping.position = t.position ∧ t.orderStopping.speed = t.speed := by
    unfold Travel.orderStopping
    split <;> exact ⟨rfl, rfl⟩
  refine ⟨stops, fun d v => ?_, fun r => ?_, rfl, rfl⟩
  · unfold Travel.orderDrain
    cases d with
    | none => exact stops
    | some d => dsimp only; split <;> exact ⟨rfl, rfl⟩
  · rw [Travel.setSpindle_eq]
    exact ⟨rfl, rfl⟩

/-- The part with the OFF requests of a RUNOUT response made (R95, R140). -/
def State.offAsked (s : State) : State :=
  s.onQuench (·.offRequests s.seq.passDir s.travel.position)

/-- The part behind an OFF request lost for want of room in a RUNOUT response: STOP_FLOOD takes over (R96, R140, R146). -/
def State.offLost (s : State) : State :=
  ((s.offAsked.onTrip fun t => { t with record := t.record.map (·.further .trailFull) }).zeroOrder).stopFloodResponse

/-- The motion of a RUNOUT response whose OFF requests are made (R140). -/
def State.offDriven (s : State) : State :=
  if s.offAsked.quench.trailsEmpty then (s.offAsked.onTrip ({ · with trailsSeen := true })).stopCarriage
  else if s.travel.mode = .target then s.offAsked.onTravel Travel.orderStopping
  else s.offAsked.onTravel (·.orderDrain s.seq.passDir s.runoutSpeed)

/-- The RUNOUT response in TRIPPING, with its OFF requests made or one of them lost (R96, R140). -/
theorem State.runoutResponse_eq (s : State) (hs : s.seq.state = .tripping)
    (hr : (s.respond .runout) = s) :
    s.runoutResponse =
      if s.offAsked.quench.trailFull = true ∧ s.quench.trailFull = false then s.offLost
      else s.offDriven := by
  have resp : s.trip.response = some .runout := by rw [← hr]; rfl
  have lost : s.offAsked.furtherTrip .trailFull = s.offLost := by
    unfold State.furtherTrip
    have hst : s.offAsked.seq.state = .tripping := hs
    have hre : s.offAsked.trip.response = some .runout := resp
    have hw : s.offAsked.cfg.trip.responseOf .trailFull ≠ .halt := by
      show Response.stopFlood ≠ .halt
      decide
    simp only [hst, hre, if_neg hw, if_true]
    exact State.tripProgress_floods _ rfl rfl
  have asks : s.responseOffRequests =
      if s.offAsked.quench.trailFull = true ∧ s.quench.trailFull = false then s.offLost
      else s.offAsked := by
    rw [← lost]
    exact if_congr (by simp [State.offAsked]) rfl rfl
  unfold State.runoutResponse
  rw [hr, asks]
  by_cases full : s.offAsked.quench.trailFull = true ∧ s.quench.trailFull = false
  · rw [if_pos full]
    have floods : s.offLost.trip.response = some .stopFlood := rfl
    simp [if_pos full, floods]
  · have h1 : s.offAsked.seq.state = .tripping := hs
    have h2 : s.offAsked.trip.response = some .runout := resp
    simp only [if_neg full, h1, h2]
    unfold State.offDriven
    rfl

/-- What the orders of a latching trip have left, in a Sequencer state: the record, the zero order, the flush, and nothing of the blocks
a trip leaves alone (R137 to R139). -/
structure TripOrdered (s t : State) (src : Source) (ch : Option Channel) (st : SeqState) : Prop where
  seq : t.seq = s.seq.flushed st (if s.seq.state.isScan then some .tripped else s.seq.lastEnd)
  power : t.power = s.power.off
  latch : t.trip.latch = true
  record : ∃ r, t.trip.record = some r ∧ r.tells s src ch
  response : t.trip.response.isSome = true
  zones : t.zones = s.zones.onOpen OpenRecord.noZone
  position : t.travel.position = s.travel.position
  speed : t.travel.speed = s.travel.speed
  meas : t.meas = s.meas
  cfg : t.cfg = s.cfg
  store : t.store = s.store
  inputs : t.inputs = s.inputs
  pending : t.pending = s.pending

theorem State.newRecord_tells (s : State) (src : Source) (ch : Option Channel) :
    (s.newRecord src ch).tells s src ch := ⟨rfl, rfl, rfl, rfl, rfl, rfl, rfl, rfl⟩

/-- First orders of a trip. -/
theorem State.tripBase_ordered (s : State) (src : Source) (ch : Option Channel) (r : Response)
    (st : SeqState) : TripOrdered s (s.tripBase src ch r st) src ch st :=
  ⟨rfl, rfl, rfl, ⟨_, rfl, s.newRecord_tells src ch⟩, rfl, rfl, rfl, rfl, rfl, rfl, rfl, rfl, rfl⟩

/-- Orders to valves, trails and carriage, and the response's progress, leave what `TripOrdered` says. -/
theorem TripOrdered.of_same {s t u : State} {src : Source} {ch : Option Channel} {st : SeqState}
    (h : TripOrdered s t src ch st) (hseq : u.seq = t.seq) (hpower : u.power = t.power)
    (hlatch : u.trip.latch = t.trip.latch) (hrecord : u.trip.record = t.trip.record)
    (hresponse : u.trip.response = t.trip.response) (hzones : u.zones = t.zones)
    (hposition : u.travel.position = t.travel.position) (hspeed : u.travel.speed = t.travel.speed)
    (hrest : Keeps t u [.seq, .power, .trip, .zones, .travel, .quench, .link]) :
    TripOrdered s u src ch st := by
  obtain ⟨pending, cfg, _, _, _, _, meas, _, _, store, _, inputs⟩ := hrest
  simp only [List.mem_cons, List.not_mem_nil, or_false, reduceCtorEq, false_or] at cfg meas store inputs
  exact ⟨hseq.trans h.seq, hpower.trans h.power, hlatch.trans h.latch, hrecord ▸ h.record,
    hresponse ▸ h.response, hzones.trans h.zones, hposition.trans h.position, hspeed.trans h.speed,
    meas.trans h.meas, cfg.trans h.cfg, store.trans h.store, inputs.trans h.inputs,
    pending.trans h.pending⟩

theorem State.stopCarriage_ordered {s t : State} {src : Source} {ch : Option Channel} {st : SeqState}
    (h : TripOrdered s t src ch st) : TripOrdered s (t.stopCarriage) src ch st := by
  obtain ⟨⟨hp, hv⟩, _⟩ := t.travel.orders_measured
  exact h.of_same rfl rfl rfl rfl rfl rfl hp hv (by simp [Keeps])

theorem State.discard_ordered {s t : State} {src : Source} {ch : Option Channel} {st : SeqState}
    (halt : Bool) (h : TripOrdered s t src ch st) : TripOrdered s (t.discard halt) src ch st :=
  h.of_same rfl rfl rfl rfl rfl rfl rfl rfl (by simp [Keeps])

theorem State.haltOrders_ordered {s t : State} {src : Source} {ch : Option Channel} {st : SeqState}
    (h : TripOrdered s t src ch st) : TripOrdered s t.haltOrders src ch st := by
  obtain ⟨_, _, hs, _⟩ := t.travel.orderDisabled.orders_measured
  exact h.of_same rfl rfl rfl rfl rfl rfl (hs 0).1 (hs 0).2 (by simp [Keeps])

theorem State.offDriven_ordered {s t : State} {src : Source} {ch : Option Channel} {st : SeqState}
    (h : TripOrdered s t src ch st) : TripOrdered s t.offDriven src ch st := by
  obtain ⟨⟨hp, hv⟩, hd, _⟩ := t.travel.orders_measured
  unfold State.offDriven
  split_ifs
  · exact h.of_same rfl rfl rfl rfl rfl rfl hp hv (by simp [Keeps, State.offAsked])
  · exact h.of_same rfl rfl rfl rfl rfl rfl hp hv (by simp [Keeps, State.offAsked])
  · exact h.of_same rfl rfl rfl rfl rfl rfl (hd _ _).1 (hd _ _).2 (by simp [Keeps, State.offAsked])

theorem State.offLost_ordered {s t : State} {src : Source} {ch : Option Channel} {st : SeqState}
    (h : TripOrdered s t src ch st) : TripOrdered s t.offLost src ch st := by
  obtain ⟨⟨hp, hv⟩, _⟩ := t.travel.orders_measured
  obtain ⟨r, hr, htells⟩ := h.record
  have off : s.power.off.zero.enableOff = s.power.off := rfl
  unfold State.offLost State.stopFloodResponse State.offAsked
  constructor <;> simp [h.seq, h.power, h.latch, h.zones, h.meas, h.cfg, h.store, h.inputs, h.pending,
    hp, hv, h.position, h.speed, hr, off]
  exact htells

/-- A latching trip outside IDLE and UNREFERENCED leaves what `TripOrdered` says, and its notices (R20, R137). -/
theorem State.tripMoving_ordered (s : State) (src : Source) (ch : Option Channel) :
    TripOrdered s (s.tripMoving src ch) src ch .tripping ∧ (s.tripMoving src ch).link =
      (s.link.placeNotice (.trip src ch)).placeNotice (.state .tripping .trip (some src)) := by
  have told : ∀ u : State, TripOrdered s u src ch .tripping → u.link = s.link →
      TripOrdered s ((u.notify (.trip src ch)).notify (.state .tripping .trip (some src))) src ch
          .tripping ∧
        ((u.notify (.trip src ch)).notify (.state .tripping .trip (some src))).link =
          (s.link.placeNotice (.trip src ch)).placeNotice (.state .tripping .trip (some src)) :=
    fun u h hl => ⟨h.of_same rfl rfl rfl rfl rfl rfl rfl rfl (by simp [Keeps]), by simp [hl]⟩
  have base := s.tripBase_ordered src ch (s.chosenResponse src) .tripping
  unfold State.tripMoving
  refine told _ ?_ ?_
  · cases hr : s.chosenResponse src <;> rw [hr] at base
    · dsimp only
      rw [State.runoutResponse_eq _ rfl rfl]
      split
      · exact State.offLost_ordered base
      · exact State.offDriven_ordered base
    · exact State.stopCarriage_ordered (State.discard_ordered _ base)
    · exact State.stopCarriage_ordered (State.discard_ordered _ base)
    · exact State.haltOrders_ordered base
  · cases hr : s.chosenResponse src
    · dsimp only
      rw [State.runoutResponse_eq _ rfl rfl]
      unfold State.offDriven
      split_ifs <;> rfl
    all_goals rfl

/-- A latching trip in IDLE and UNREFERENCED leaves it too, before TRIPPED is entered (R145). -/
theorem State.tripResting_ordered (s : State) (src : Source) (ch : Option Channel) :
    TripOrdered s (s.tripResting src ch) src ch s.seq.state ∧
      (s.tripResting src ch).link = s.link.placeNotice (.trip src ch) := by
  have told : ∀ u : State, TripOrdered s u src ch s.seq.state → u.link = s.link →
      TripOrdered s (u.notify (.trip src ch)) src ch s.seq.state ∧
        (u.notify (.trip src ch)).link = s.link.placeNotice (.trip src ch) :=
    fun u h hl => ⟨h.of_same rfl rfl rfl rfl rfl rfl rfl rfl (by simp [Keeps]), by simp [hl]⟩
  have base := s.tripBase_ordered src ch (s.chosenResponse src) s.seq.state
  unfold State.tripResting
  refine told _ ?_ ?_
  · cases hr : s.chosenResponse src <;> rw [hr] at base
    · exact base
    · exact State.discard_ordered _ base
    · exact State.discard_ordered _ base
    · exact State.haltOrders_ordered base
  · cases s.chosenResponse src <;> rfl

/-! ### What every latching trip leaves (R137 to R139) -/

/-- The link behind TRIPPED's entry (R144, R192). -/
theorem State.enterTripped_link (s : State) :
    s.enterTripped.link =
      match s.zones.openRec with
      | some r => (s.link.placeNotice (.state .tripped .trip s.firstCause)).placeNotice
          (.record r.number)
      | none => s.link.placeNotice (.state .tripped .trip s.firstCause) := by
  unfold State.enterTripped
  dsimp only
  cases hr : s.zones.openRec with
  | none =>
    rw [State.scanOver_link, State.closeRecord_link_none]
    · split <;> simp
    · split <;> simpa using hr
  | some r =>
    rw [State.scanOver_link, State.closeRecord_link_some _ _ _ r]
    · split <;> simp
    · split <;> simpa using hr

/-- TRIPPED entered behind the orders of a trip (R137, R144). -/
theorem TripOrdered.entered {s u : State} {src : Source} {ch : Option Channel} {st : SeqState}
    (h : TripOrdered s u src ch st) (hlink : u.link = s.tripTold src ch false) :
    Latched s u.enterTripped src ch := by
  obtain ⟨r, hr, htells⟩ := h.record
  obtain ⟨hcause, _⟩ := id htells
  obtain ⟨_, _, hs, _⟩ := u.travel.orders_measured
  refine ⟨by simp [h.latch], ⟨r, by simp [hr], htells⟩, ?_, ?_, ?_, ?_, ?_, ?_, ?_, ?_, ?_, ?_, ?_, ?_,
    ?_, ?_, ?_, ?_, ?_⟩
  · rw [State.enterTripped_seq]
    split
    · rfl
    · exact .inr rfl
  all_goals simp only [State.enterTripped_seq, State.enterTripped_power, State.enterTripped_travel,
    State.enterTripped_meas, State.enterTripped_cfg, State.enterTripped_store,
    State.enterTripped_pending, h.seq, h.power, h.meas, h.cfg, h.store, h.pending]
  · exact ⟨rfl, rfl, rfl⟩
  · rfl
  · rfl
  · exact ⟨rfl, rfl, rfl, rfl, rfl, rfl, rfl, rfl⟩
  · rfl
  · rfl
  · rfl
  · rfl
  · rfl
  · exact (hs 0).1.trans h.position
  · exact (hs 0).2.trans h.speed
  · have cause : u.firstCause = some src := by simp [State.firstCause, hr, hcause]
    rw [State.enterTripped_link, h.zones, cause, hlink]
    unfold State.tripTold Zones.onOpen
    cases s.zones.openRec <;> rfl

/-- The orders of a trip whose response is awaited in TRIPPING (R137, R144). -/
theorem TripOrdered.waiting {s u : State} {src : Source} {ch : Option Channel}
    (h : TripOrdered s u src ch .tripping) (hrest : s.seq.state.isRest = false)
    (hlink : u.link = s.tripTold src ch false) : Latched s u src ch := by
  have state : u.seq.state = .tripping := by rw [h.seq]; rfl
  refine ⟨h.latch, h.record, ?_, ?_, ?_, ?_, ?_, ?_, ?_, ?_, ?_, ?_, h.position, h.speed, h.meas, h.cfg,
    ?_, h.pending, ?_⟩
  · rw [hrest]
    exact .inl state
  all_goals simp only [h.seq, h.power, h.store]
  · exact ⟨rfl, rfl, rfl⟩
  · rfl
  · rfl
  · exact ⟨rfl, rfl, rfl, rfl, rfl, rfl, rfl, rfl⟩
  · rfl
  · rfl
  · rfl
  · rfl
  · rfl
  · exact hlink

/-- Every latching trip leaves what `Latched` says (R137 to R139, R144, R145). -/
theorem State.latchingTrip_latched (s : State) (src : Source) (ch : Option Channel) :
    Latched s (s.latchingTrip src ch) src ch := by
  cases hrest : s.seq.state.isRest
  · obtain ⟨ordered, link⟩ := s.tripMoving_ordered src ch
    have hlink : (s.tripMoving src ch).link = s.tripTold src ch false := by
      rw [link]
      unfold State.tripTold
      rw [hrest]
      rfl
    rw [s.latchingTrip_moving src ch hrest]
    unfold State.tripProgress
    split
    · exact ordered.entered hlink
    · exact ordered.waiting hrest hlink
  · obtain ⟨ordered, link⟩ := s.tripResting_ordered src ch
    rw [s.latchingTrip_resting src ch hrest]
    refine ordered.entered ?_
    rw [link]
    unfold State.tripTold
    rw [hrest]
    rfl

end Sys2Proof.Machine

namespace Sys2Proof.Machine

/-! ### What an event does to the scan, one act at a time

The invariants of the Sequencer, the latch, the record list and the trails read little of a state. A step of the part is a chain of
acts (`step_acts`), each of which changes what they read in one way or leaves it, and each of which keeps them. -/

/-- Nothing that the invariants of queue, latch, record, trails and pass read has changed. -/
structure Calm (s t : State) : Prop where
  state : t.seq.state = s.seq.state
  phase : t.seq.turnPhase = s.seq.turnPhase
  queue : t.seq.queue = s.seq.queue
  next : t.seq.next = s.seq.next
  active : t.seq.active = s.seq.active
  source : t.seq.source = s.seq.source
  loader : t.seq.loader = s.seq.loader
  dir : t.seq.passDir = s.seq.passDir
  flow : t.seq.flow = s.seq.flow
  timer : t.seq.stepTimer.isSome = s.seq.stepTimer.isSome
  clock : t.seq.scanClock.isSome = s.seq.scanClock.isSome
  trail : t.quench.trail = s.quench.trail
  valve1 : t.quench.circuit.q1.valve = s.quench.circuit.q1.valve
  valve2 : t.quench.circuit.q2.valve = s.quench.circuit.q2.valve
  latch : t.trip.latch = s.trip.latch
  record : t.trip.record.map (·.state) = s.trip.record.map (·.state)
  response : t.trip.response = s.trip.response
  seen : t.trip.trailsSeen = s.trip.trailsSeen
  closed : t.zones.closed = s.zones.closed
  opened : t.zones.openRec.isSome = s.zones.openRec.isSome

theorem Calm.refl (s : State) : Calm s s := by constructor <;> rfl

/-- Carriage, power, measurement, store, link, configuration, inputs and waiting commands are free. -/
theorem Calm.of_blocks {s t : State} (hseq : t.seq = s.seq) (hquench : t.quench = s.quench)
    (htrip : t.trip = s.trip) (hzones : t.zones = s.zones) : Calm s t := by
  constructor <;> simp only [hseq, hquench, htrip, hzones]

theorem Calm.onTravel (s : State) (f : Travel → Travel) : Calm s (s.onTravel f) :=
  .of_blocks rfl rfl rfl rfl

/-- An update of the open record keeps one open. -/
theorem Calm.onOpen (s : State) (f : OpenRecord → OpenRecord) : Calm s (s.onZones (·.onOpen f)) := by
  constructor <;> simp [Zones.onOpen]

/-- A change of the Sequencer in PRESTART and RUNNING that touches queue, source, loader and flow state within their bounds, and no
state, slot, timer or pass (R28, R36, R38, R39). -/
structure Edited (a b : Seq) : Prop where
  scans : a.state = .prestart ∨ a.state = .running
  state : b.state = a.state
  phase : b.turnPhase = a.turnPhase
  next : b.next = a.next
  active : b.active = a.active
  dir : b.passDir = a.passDir
  timer : b.stepTimer = a.stepTimer
  clock : b.scanClock = a.scanClock
  queue : b.queue.length ≤ 32 ∨ b.queue.length ≤ a.queue.length
  flow : b.flow ≠ .flowing → b.source = .link ∨ (a.flow ≠ .flowing ∧ b.source = a.source)

/-- The Sequencer states without a scan or a trip. -/
def SeqState.resting : SeqState → Bool
  | .unreferenced | .idle | .homing | .positioning => true
  | _ => false

/-- A release of both rings at a position and a measured speed (R99). -/
def Quench.releases (q : Quench) (c : QuenchCfg) (d : Dir) (pos v : Int) : Quench :=
  (q.release c d pos v .q1).release c d pos v .q2

/-- One act of the part on its scan. -/
inductive Act : State → State → Prop
  | calm {s t : State} : Calm s t → Act s t
  | latches {s : State} (src : Source) (ch : Option Channel) :
      s.trip.latch = false → Act s (s.latchingTrip src ch)
  | furthers {s : State} (src : Source) : s.trip.latch = true → Act s (s.furtherTrip src)
  | trips {s : State} : s.seq.state = .tripping → s.trip.done = true → Act s s.enterTripped
  | clears {s : State} (st : SeqState) : s.seq.state = .tripped → st.isRest = true →
      Act s ((s.onTrip TripUnit.cleared).onSeq ({ · with state := st }))
  | rests {s : State} (st : SeqState) : s.seq.state.resting = true → st.resting = true →
      Act s (s.onSeq ({ · with state := st }))
  | restarts {s : State} : s.restartAnswer = .ok → Act s s.restarted
  | resets {s : State} (i : Inputs) (p : List Instr) : Act s (.afterReset i p)
  | starts {s : State} (p : StartPlan) : s.seq.state = .idle → s.zones.count < 8 →
      Act s (s.acceptStart p)
  | exits {s : State} (c : EndCause) : s.seq.state = .prestart → Act s (s.exitPrestart c)
  | runs {s : State} : s.seq.state = .prestart → Act s (s.onSeq ({ · with state := .running }))
  | edits {s t : State} (q : Seq) : Edited s.seq q → Calm { s with seq := q } t → Act s t
  | admits {s : State} (a : Admitted) (rest : List QStep) (nominal : Int) :
      s.seq.state = .prestart ∨ s.seq.state = .running → s.seq.next = none →
      rest.length ≤ s.seq.queue.length → (a.step.isMotion = true → a.dir ≠ none) →
      (a.turn = true → a.dir ≠ none) →
      Act s (s.onSeq fun x => { x with
        queue := rest, next := some a, nominal := nominal,
        passDir := if x.passDir.isNone then a.dir else x.passDir })
  | activates {s u : State} (a : Admitted) : s.seq.state = .running → s.seq.next = some a →
      (a.turn = true → s.quench.trailsEmpty = true ∨ s.seq.turnPhase = .return) →
      Calm (s.onSeq (·.activated a)) u → Act s (u.handQuench a)
  | idles {s : State} (a : Admitted) : s.seq.active = some a → Act s (s.clearActive a)
  | drains {s : State} : s.seq.state = .running → s.seq.active = none →
      Act s (s.onSeq ({ · with turnPhase := .drain }))
  | stops {s : State} : s.seq.turnPhase = .drain → s.quench.trailsEmpty = true →
      Act s (s.onSeq ({ · with turnPhase := .stopping }))
  | returns {s : State} : s.seq.turnPhase = .stopping →
      Act s (s.onSeq ({ · with turnPhase := .return }))
  | ends {s : State} (c : EndCause) (pos : Int) : s.seq.state = .running →
      Act s ((s.runoutStart c).onTrails (·.offRequests s.seq.passDir pos))
  | completes {s : State} : s.seq.state = .runout → s.quench.trailsEmpty = true →
      Act s s.runoutComplete
  | releases {s : State} (c : QuenchCfg) (d : Dir) (pos v : Int) : s.seq.passDir = some d →
      Act s (s.onQuench (·.releases c d pos v))
  | sees {s : State} (seen : Bool) : (seen = true → s.quench.trailsEmpty = true) →
      Act s (s.onTrip ({ · with trailsSeen := seen }))
  | drops {s : State} (n : Nat) : Act s (s.onZones (·.release n))

/-- A chain of acts. -/
def Acts : State → State → Prop := Relation.ReflTransGen Act

theorem Acts.refl (s : State) : Acts s s := Relation.ReflTransGen.refl

theorem Acts.one {s t : State} (h : Act s t) : Acts s t := Relation.ReflTransGen.single h

theorem Acts.trans {s t u : State} (h : Acts s t) (h' : Acts t u) : Acts s u :=
  Relation.ReflTransGen.trans h h'

/-- What every act keeps, a chain of acts keeps. -/
theorem Acts.keeps {P : State → Prop} (act : ∀ s t, Act s t → P s → P t) {s t : State} (h : Acts s t)
    (hs : P s) : P t := by
  induction h with
  | refl => exact hs
  | tail _ ha ih => exact act _ _ ha ih

theorem Acts.calm {s t : State} (h : Calm s t) : Acts s t := .one (.calm h)

/-! ### The acceptance of a START, block by block (R24) -/

theorem Seq.started_eq (q : Seq) (p : StartPlan) (position : Int) (prestart : Nat) :
    q.started p position prestart = { q with
      turnPhase := .none, queue := [], next := none, active := none,
      source := if p.page.isSome then .profile else .link,
      segKind := if p.page.isSome then none else some .stream, segClosed := false,
      programEnd := false, loader := p.page.map fun pg => ⟨pg, 0, .running⟩, passDir := none,
      scanStart := position, nominal := position, zoneCount := p.windows.length, lastZone := none,
      linkCount := 0, flow := .flowing, trimT := q.trimsAtStart.1, trimS := q.trimsAtStart.2.1,
      shadow := q.trimsAtStart.2.2, stepTimer := none, prestartTimer := some prestart,
      scanClock := some 0, spinTaken := false, heatSpeed := none } := by
  unfold Seq.started Seq.trimsAtStart Seq.transfer
  rcases q with ⟨⟩
  rename_i shadow _ _ _ _ _ _ _
  rcases shadow with _ | ⟨t, v, _ | _ | _⟩ <;> rfl

/-- The carriage at the acceptance of a START: HOLD, and the spindle command (R24, R51, R64). -/
theorem Travel.orderHold_setSpindle (t : Travel) (r : Nat) :
    t.orderHold.setSpindle r =
      { (if t.mode = .disabled then
          { t with driveEnable := true, plan := t.position * 1000, planSpeed := 0 }
        else t) with
        mode := .hold, targetSpeed := 0, stopPoint := none, dir := none, finish := .none,
        decision := .none, spindleCommand := r,
        lowCount := if t.spindleCommand = r then t.lowCount else 0 } := by
  rw [Travel.setSpindle_eq]
  unfold Travel.orderHold Travel.awake
  split <;> rfl

/-- An accepted START leaves what `StartedScan` says (R23, R24). -/
theorem State.acceptStart_eq (s : State) (p : StartPlan) :
    s.acceptStart p = StartedScan s p.part p.page p.windows p.spindle
      (if p.page.isSome then s.link.stated .prestart .start
        else (s.link.stated .prestart .start).placeNotice (.flow true)) := by
  have seq := s.seq.started_eq p s.travel.position s.cfg.prestart
  have travel := s.travel.orderHold_setSpindle p.spindle
  unfold State.acceptStart StartedScan
  cases hp : p.page <;> rw [hp] at seq <;> refine State.eq_of_blocks rfl ?_ travel rfl rfl rfl rfl ?_ rfl rfl rfl rfl
  · exact congrArg (fun q : Seq => { q with state := .prestart }) seq
  · rfl
  · exact congrArg (fun q : Seq => { q with state := .prestart }) seq
  · rfl

end Sys2Proof.Machine

namespace Sys2Proof.Machine

/-! ### A trail change and its trip (R96) -/

/-- A trail change is that change, and the trip of TRAIL_FULL behind it when it has set the mark (R96, R130). -/
theorem State.onTrails_cases (s : State) (f : Quench → Quench) :
    (s.onTrails f = s.onQuench f ∧ ((f s.quench).trailFull = true → s.quench.trailFull = true)) ∨
      (s.trip.latch = true ∧ s.onTrails f = (s.onQuench f).furtherTrip .trailFull) ∨
      (s.trip.latch = false ∧ s.onTrails f = (s.onQuench f).latchingTrip .trailFull none) := by
  have raised : (s.onQuench f).raise .trailFull =
      if s.trip.latch then (s.onQuench f).furtherTrip .trailFull
      else (s.onQuench f).latchingTrip .trailFull none := rfl
  unfold State.onTrails State.raiseIf
  dsimp only
  rw [raised]
  split
  · cases hl : s.trip.latch
    · exact .inr (.inr ⟨rfl, rfl⟩)
    · exact .inr (.inl ⟨rfl, rfl⟩)
  · rename_i h
    refine .inl ⟨rfl, fun hf => ?_⟩
    rw [State.onQuench_quench, hf] at h
    simpa using h

/-- The Quench Unit's share of an activation: a trail change, Q3 taken, or nothing (R94, R102). -/
theorem State.handQuench_cases (s : State) (a : Admitted) :
    (a.step.isMotion = true ∧ ∃ x y, s.handQuench a = s.onTrails fun q =>
        (q.setting s.seq.passDir .q1 x a.start).setting s.seq.passDir .q2 y a.start) ∨
      Calm s (s.handQuench a) := by
  unfold State.handQuench
  cases a.step
  case move p v x y => exact .inl ⟨rfl, x, y, rfl⟩
  case heat p v e z x y f => exact .inl ⟨rfl, x, y, rfl⟩
  case spray n =>
    refine .inr ?_
    dsimp only [Quench.sprayOpen]
    constructor <;> simp [Quench.openValve_eq, PerCircuit.set]
  all_goals exact .inr (.refl s)

/-- A further trip by the state it finds: the record, and a HALT or a STOP_FLOOD (R138, R146, R147). -/
theorem State.furtherTrip_cases (s : State) (src : Source) :
    let u := s.onTrip fun t => { t with record := t.record.map (·.further src) }
    s.furtherTrip src = u ∨
      (s.seq.state = .tripping ∧
        (s.furtherTrip src = u.zeroOrder.haltResponse.tripProgress ∨
          s.furtherTrip src = u.zeroOrder.stopFloodResponse.tripProgress)) ∨
      (s.seq.state = .tripped ∧ s.furtherTrip src = u.haltOrders) := by
  intro u
  unfold State.furtherTrip
  cases hs : s.seq.state <;> dsimp only
  case tripping =>
    split_ifs
    · exact .inr (.inl ⟨rfl, .inl rfl⟩)
    · exact .inr (.inl ⟨rfl, .inr rfl⟩)
    · exact .inl rfl
  case tripped =>
    split_ifs
    · exact .inr (.inr ⟨rfl, rfl⟩)
    · exact .inl rfl
  all_goals exact .inl rfl

theorem State.tripProgress_cases (s : State) :
    s.tripProgress = s ∨ (s.seq.state = .tripping ∧ s.trip.done = true ∧
      s.tripProgress = s.enterTripped) := by
  unfold State.tripProgress
  split
  · rename_i h
    rw [Bool.and_eq_true, beq_iff_eq] at h
    exact .inr ⟨h.1, h.2, rfl⟩
  · exact .inl rfl

/-! ### The Step Queue's bounds (R28, R37, R39, R45) -/

namespace QueueInv

/-- The bounds read the Sequencer alone. -/
theorem of_seq {s t : State} (h : QueueInv s) (e : t.seq = s.seq) : QueueInv t := by
  unfold QueueInv at h ⊢
  rw [e]
  exact h

theorem calm {s t : State} (h : QueueInv s) (c : Calm s t) : QueueInv t := by
  unfold QueueInv at h ⊢
  rw [c.state, c.phase, c.queue, c.next, c.active, c.source, c.loader, c.flow, c.timer]
  exact h

/-- An emptied Sequencer is within them, in every state. -/
theorem of_flushed {s : State} (hq : s.seq.queue = []) (hn : s.seq.next = none)
    (ha : s.seq.active = none) (hs : s.seq.source = .none) (hf : s.seq.flow = .flowing)
    (hl : s.seq.loader = none) (ht : s.seq.stepTimer = none) (hp : s.seq.turnPhase = .none) :
    QueueInv s := by
  simp [QueueInv, hq, hn, ha, hs, hf, hl, ht, hp]

theorem flushed {s : State} {q : Seq} {st : SeqState} {last : Option EndCause}
    (h : s.seq = q.flushed st last) : QueueInv s := by
  apply of_flushed <;> rw [h] <;> rfl

theorem enterTripped {s : State} (h : QueueInv s) (hs : s.seq.state = .tripping) :
    QueueInv s.enterTripped := by
  simp [QueueInv, hs] at h ⊢
  simpa using h

theorem tripProgress {s : State} (h : QueueInv s) : QueueInv s.tripProgress := by
  rcases s.tripProgress_cases with e | ⟨hs, _, e⟩ <;> rw [e]
  · exact h
  · exact h.enterTripped hs

theorem latchingTrip (s : State) (src : Source) (ch : Option Channel) :
    QueueInv (s.latchingTrip src ch) := by
  obtain ⟨_, _, _, _, _, _, hflushed, _⟩ := s.latchingTrip_latched src ch
  obtain ⟨hq, hn, ha, hs, hf, hl, ht, hp⟩ := hflushed
  exact of_flushed hq hn ha hs hf hl ht hp

theorem furtherTrip {s : State} (h : QueueInv s) (src : Source) : QueueInv (s.furtherTrip src) := by
  rcases s.furtherTrip_cases src with e | ⟨_, e | e⟩ | ⟨_, e⟩ <;> rw [e]
  · exact h.of_seq rfl
  · exact tripProgress (h.of_seq (by rfl))
  · exact tripProgress (h.of_seq (by rfl))
  · exact h.of_seq rfl

theorem onTrails {s : State} (h : QueueInv s) (f : Quench → Quench) : QueueInv (s.onTrails f) := by
  rcases s.onTrails_cases f with ⟨e, _⟩ | ⟨_, e⟩ | ⟨_, e⟩ <;> rw [e]
  · exact h.of_seq rfl
  · exact furtherTrip (h.of_seq (by rfl)) _
  · exact latchingTrip _ _ _

theorem edited {s : State} {q : Seq} (h : QueueInv s) (e : Edited s.seq q) :
    QueueInv { s with seq := q } := by
  obtain ⟨hlen, _, hactive, hphase, htimer, hflow⟩ := h
  refine ⟨?_, ?_, ?_, ?_, ?_, ?_⟩
  · rcases e.queue with hq | hq
    · exact hq
    · exact hq.trans hlen
  · intro h1 h2
    rcases e.scans with hs | hs
    · exact absurd (e.state.trans hs) h1
    · exact absurd (e.state.trans hs) h2
  · simpa only [e.state, e.phase, e.active] using hactive
  · simpa only [e.state, e.phase] using hphase
  · simpa only [e.timer, e.active] using htimer
  · intro hf
    rcases e.flow hf with hl | ⟨hf', hsrc⟩
    · exact hl
    · exact hsrc.trans (hflow hf')

/-- Every act keeps the queue's bounds. -/
theorem act (s t : State) (a : Act s t) (h : QueueInv s) : QueueInv t := by
  have parts := h
  obtain ⟨hlen, hempty, hactive, hphase, htimer, hflow⟩ := parts
  cases a with
  | calm c => exact h.calm c
  | latches src ch => exact latchingTrip _ _ _
  | furthers src => exact h.furtherTrip src
  | trips hs => exact h.enterTripped hs
  | clears st hs hst =>
    simp only [hs, reduceCtorEq, not_false_eq_true, forall_const, ne_eq] at hempty hactive hphase
    have hact : s.seq.active = none := by simpa using hactive
    cases st <;> simp_all [QueueInv, SeqState.isRest]
  | rests st hs hst =>
    have away : s.seq.state ≠ .prestart ∧ s.seq.state ≠ .running := by
      constructor <;> intro e <;> rw [e] at hs <;> cases hs
    have away' : st ≠ .prestart ∧ st ≠ .running := by
      constructor <;> rintro rfl <;> cases hst
    obtain ⟨a1, a2⟩ := away
    obtain ⟨b1, b2⟩ := away'
    simp_all [QueueInv]
  | restarts => exact of_flushed rfl rfl rfl rfl rfl rfl rfl rfl
  | resets i p => exact of_flushed rfl rfl rfl rfl rfl rfl rfl rfl
  | starts p =>
    rw [State.acceptStart_eq]
    simp [QueueInv, StartedScan]
  | exits c => apply of_flushed <;> rw [State.exitPrestart_seq]
  | runs hs =>
    simp only [hs, reduceCtorEq, imp_false] at hphase hactive
    simp_all [QueueInv]
  | edits q e c => exact (h.edited e).calm c
  | admits a rest nominal hs hn hr =>
    refine ⟨hr.trans hlen, ?_, hactive, hphase, htimer, hflow⟩
    intro h1 h2
    exact absurd hs (by rintro (hs | hs) <;> contradiction)
  | activates a hs hn ht c =>
    have held : QueueInv (s.onSeq (·.activated a)) := by
      simp only [QueueInv, State.onSeq_seq, Seq.activated_eq, hs]
      refine ⟨hlen, ?_, ?_, ?_, ?_, hflow⟩ <;> simp
    rcases State.handQuench_cases _ a with ⟨_, x, y, e⟩ | e
    · rw [e]
      exact (held.calm c).onTrails _
    · exact (held.calm c).calm e
  | idles a ha =>
    have seq : (s.clearActive a).seq = { s.seq with active := none, stepTimer := none } := by
      unfold State.clearActive
      dsimp only
      split <;> rfl
    simp only [QueueInv, seq]
    refine ⟨hlen, hempty, ?_, hphase, ?_, hflow⟩ <;> simp
  | drains hs ha => simp_all [QueueInv]
  | stops hd => simp_all [QueueInv]
  | returns hd => simp_all [QueueInv]
  | ends c pos hs => exact (flushed (s := s.runoutStart c) rfl).onTrails _
  | completes hs =>
    simp_all [QueueInv]
  | releases c d pos v => exact h.of_seq rfl
  | sees => exact h.of_seq rfl
  | drops n => exact h.of_seq rfl

end QueueInv

end Sys2Proof.Machine

namespace Sys2Proof.Machine

/-! ### The shared operations as chains of acts -/

/-- The bounds of the queue hold all along a chain. -/
theorem Acts.queue {s t : State} (h : Acts s t) (hq : QueueInv s) : QueueInv t :=
  h.keeps QueueInv.act hq

/-- An act behind a chain. -/
theorem Acts.then {s t u : State} (h : Acts s t) (a : Act t u) : Acts s u := h.trans (.one a)

/-- A chain whose end may differ in what the invariants do not read. -/
theorem Acts.andCalm {s t u : State} (h : Acts s t) (c : Calm t u) : Acts s u := h.trans (.calm c)

namespace State

theorem raise_acts (s : State) (src : Source) (ch : Option Channel) : Acts s (s.raise src ch) := by
  unfold State.raise
  split
  · exact .calm (.onOpen _ _)
  · exact .refl s
  · split
    · exact .one (.furthers src ‹_›)
    · exact .one (.latches src ch (Bool.eq_false_iff.2 ‹_›))

theorem raiseIf_acts (s : State) (was now : Bool) (src : Source) (ch : Option Channel) :
    Acts s (s.raiseIf was now src ch) := by
  unfold State.raiseIf
  split
  · exact s.raise_acts src ch
  · exact .refl s

theorem raisePresent_acts (s : State) (test : Source → Bool) : Acts s (s.raisePresent test) := by
  unfold State.raisePresent
  generalize (Source.all.filter test).flatMap s.raisesOf = raises
  induction raises generalizing s with
  | nil => exact .refl s
  | cons p ps ih => exact (s.raise_acts p.1 p.2).trans (ih _)

theorem runoutMotion_acts (s : State) (returning : Bool) : Acts s (s.runoutMotion returning) := by
  by_cases hs : s.seq.state = .runout
  · rcases s.runoutMotion_cases returning hs with ⟨e, he, _⟩ | ⟨e, _⟩ | ⟨e, _⟩ <;> rw [e]
    · have stands : Calm s (s.onTravel Travel.standing) := .of_blocks rfl rfl rfl rfl
      exact Acts.then (.calm stands) (.completes hs he)
    · exact .calm (.of_blocks rfl rfl rfl rfl)
    · exact .calm (.of_blocks rfl rfl rfl rfl)
  · rw [s.runoutMotion_other _ hs]
    exact .refl s

theorem runoutEntry_acts (s : State) (c : EndCause) (stop : Option Int)
    (hs : s.seq.state = .running) : Acts s (s.runoutEntry c stop) := by
  rw [State.runoutEntry_eq]
  exact Acts.trans (.one (.ends c _ hs)) (State.runoutMotion_acts _ _)

theorem vacantCheck_acts (s : State) : Acts s s.vacantCheck := by
  unfold State.vacantCheck
  split
  · rename_i h
    have hs := ((State.vacant_iff s).1 (Bool.and_eq_true_iff.1 h).1).1
    split_ifs
    · exact s.runoutEntry_acts _ _ hs
    · exact .refl s
    · exact s.runoutEntry_acts _ _ hs
    · exact .refl s
  · exact .refl s

theorem activate_acts (s : State) (a : Admitted) (hs : s.seq.state = .running)
    (hn : s.seq.next = some a)
    (ht : a.turn = true → s.quench.trailsEmpty = true ∨ s.seq.turnPhase = .return) :
    Acts s (s.activate a) := by
  refine .one (.activates a hs hn ht ?_)
  have seq : ∀ u : State, (u.handTravel a).seq = u.seq ∨
      ∃ v, (u.handTravel a).seq = { u.seq with heatSpeed := some v } := by
    intro u
    unfold State.handTravel
    cases a.step
    case heat => exact .inr ⟨_, rfl⟩
    all_goals exact .inl rfl
  have opened : ∀ u : State, (u.handZones a).zones.closed = u.zones.closed ∧
      (u.handZones a).zones.openRec.isSome = u.zones.openRec.isSome := by
    intro u
    rw [State.handZones_spec]
    simp
  rcases seq ((s.onSeq (·.activated a)).sendMarks a.marks) with e | ⟨v, e⟩ <;>
    constructor <;> simp [e, opened]

theorem proceed_acts (s : State) (hs : s.seq.state = .running) (ha : s.seq.active = none) :
    Acts s s.proceed := by
  cases hn : s.seq.next with
  | none =>
    rw [s.proceed_empty hn]
    exact .calm (.of_blocks rfl rfl rfl rfl)
  | some a =>
    cases ht : a.turn
    · rw [s.proceed_step a hn ht]
      exact s.activate_acts a hs hn (by rw [ht]; nofun)
    · rw [s.proceed_turn a hn ht]
      split
      · exact .calm (.of_blocks rfl rfl rfl rfl)
      · exact Acts.andCalm (.one (.drains hs ha)) (.of_blocks rfl rfl rfl rfl)

theorem stepEnd_acts (s : State) (h : QueueInv s) : Acts s s.stepEnd := by
  unfold State.stepEnd
  cases ha : s.seq.active with
  | none => exact .refl s
  | some a =>
    have idle : Acts s (s.clearActive a) := .one (.idles a ha)
    have seq : (s.clearActive a).seq = { s.seq with active := none, stepTimer := none } := by
      unfold State.clearActive
      dsimp only
      split <;> rfl
    obtain ⟨_, _, hactive, _⟩ := h
    have hs : (s.clearActive a).seq.state = .running := by
      rw [seq]
      exact (hactive (by rw [ha]; rfl)).1
    dsimp only
    split_ifs
    · exact idle.trans (State.proceed_acts _ hs (by rw [seq]))
    · exact idle.trans (State.runoutEntry_acts _ _ _ hs)
    · exact idle.trans (State.runoutEntry_acts _ _ _ hs)
    · exact idle.andCalm (.of_blocks rfl rfl rfl rfl)
    · exact idle.trans (State.runoutEntry_acts _ _ _ hs)

theorem dropFirstNonMark_length (q : List QStep) : (dropFirstNonMark q).length ≤ q.length := by
  induction q with
  | nil => exact Nat.le_refl _
  | cons x xs ih =>
    unfold dropFirstNonMark
    split
    · exact Nat.succ_le_succ ih
    · exact Nat.le_succ _

theorem firstNonMark_length (q rest : List QStep) (x : QStep) (h : firstNonMark q = some (x, rest)) :
    rest.length ≤ q.length := by
  induction q with
  | nil => cases h
  | cons y ys ih =>
    unfold firstNonMark at h
    split at h
    · exact (ih h).trans (Nat.le_succ _)
    · cases h
      exact Nat.le_succ _

/-- A source step at the head acts on queue, source, loader and flow state (R29, R36, R38). -/
theorem sourceHead_edited (s : State) (hs : s.seq.state = .prestart ∨ s.seq.state = .running) :
    Edited s.seq s.sourceHead.seq ∧ s.sourceHead.quench = s.quench ∧ s.sourceHead.trip = s.trip ∧
      s.sourceHead.zones = s.zones := by
  have len := dropFirstNonMark_length s.seq.queue
  have same : Edited s.seq s.seq :=
    ⟨hs, rfl, rfl, rfl, rfl, rfl, rfl, rfl, .inr (Nat.le_refl _), fun h => .inr ⟨h, rfl⟩⟩
  unfold State.sourceHead
  split
  · dsimp only
    split
    · exact ⟨⟨hs, rfl, rfl, rfl, rfl, rfl, rfl, rfl, .inr len, fun _ => .inl rfl⟩, rfl, rfl, rfl⟩
    · unfold State.resumeLoader
      split
      · split <;>
          exact ⟨⟨hs, rfl, rfl, rfl, rfl, rfl, rfl, rfl, .inr len, fun h => absurd rfl h⟩, rfl, rfl, rfl⟩
      · exact ⟨⟨hs, rfl, rfl, rfl, rfl, rfl, rfl, rfl, .inr len, fun h => absurd rfl h⟩, rfl, rfl, rfl⟩
    · exact ⟨⟨hs, rfl, rfl, rfl, rfl, rfl, rfl, rfl, .inr len, fun h => .inr ⟨h, rfl⟩⟩, rfl, rfl, rfl⟩
    · exact ⟨same, rfl, rfl, rfl⟩
  · exact ⟨same, rfl, rfl, rfl⟩

theorem sourceHead_acts (s : State) (hs : s.seq.state = .prestart ∨ s.seq.state = .running) :
    Acts s s.sourceHead := by
  obtain ⟨edited, quench, trip, zones⟩ := s.sourceHead_edited hs
  exact .one (.edits _ edited (.of_blocks rfl quench trip zones))

theorem admission_acts (s : State) : Acts s s.admission := by
  by_cases hd : s.admissionDue = true
  · have due := hd
    unfold State.admissionDue at due
    simp only [Bool.and_eq_true, Bool.or_eq_true, beq_iff_eq, Option.isNone_iff_eq_none] at due
    obtain ⟨⟨⟨hs, hn⟩, hr⟩, hq⟩ := due
    cases hf : firstNonMark s.seq.queue with
    | none => rw [hf] at hq; cases hq
    | some qr =>
      obtain ⟨q, rest⟩ := qr
      rw [hf] at hq
      rw [s.admission_due q rest hs hn hr hf (by simpa using hq)]
      split
      · rename_i hok
        have turn : (s.admitStep q).turn = true → (s.admitStep q).dir ≠ none := by
          unfold State.admitStep
          dsimp only
          intro ht hnone
          rw [hnone] at ht
          cases ht
        have motion : (s.admitStep q).step.isMotion = true → (s.admitStep q).dir ≠ none := by
          intro hm
          obtain ⟨ends, _⟩ := (s.admissible_iff q).1 hok
          obtain ⟨apart, _⟩ := ends hm
          have hm' : q.step.isMotion = true := hm
          unfold State.admitStep dirTo
          dsimp only
          rw [if_pos hm']
          split_ifs
          · nofun
          · nofun
          · omega
        have admits := Act.admits (s.admitStep q) rest (s.admitStep q).stop hs hn
          (firstNonMark_length _ _ _ hf) motion turn
        have falls : Acts s (s.withNext q rest) := by
          refine Acts.then (.one admits) (.edits (s.withNext q rest).seq ⟨hs, rfl, rfl, rfl, rfl, ?_, rfl,
            rfl, .inr (Nat.le_refl _), fun h => .inr ⟨?_, rfl⟩⟩ (.of_blocks rfl rfl rfl rfl))
          · unfold State.withNext
            cases hp : s.seq.passDir <;> simp [hp]
          · intro hflow
            have hflow' : s.seq.flow = .flowing := hflow
            unfold State.withNext at h
            simp [hflow'] at h
        have head := falls.trans (State.sourceHead_acts (s.withNext q rest) hs)
        split
        · rename_i hv
          obtain ⟨hrun, hact, _⟩ := (State.vacant_iff _).1 hv
          exact head.trans (State.proceed_acts _ hrun hact)
        · exact head
      · unfold State.programError
        split
        · exact .one (.exits _ ‹_›)
        · exact s.runoutEntry_acts _ _ (hs.resolve_left ‹_›)
  · unfold State.admission
    rw [if_neg hd]
    exact .refl s

theorem loaderAppend_acts (s : State) : Acts s s.loaderAppend := by
  unfold State.loaderAppend
  split
  · rename_i hd
    have due := hd
    unfold State.loaderDue at due
    simp only [Bool.and_eq_true, Bool.or_eq_true, beq_iff_eq, decide_eq_true_eq] at due
    obtain ⟨⟨hs, hlen⟩, _⟩ := due
    split
    · split
      · dsimp only
        have joins : ∀ q : Seq, Edited s.seq q → Acts s (s.onSeq fun _ => q).sourceHead.vacantCheck :=
          fun q e => by
            have hs' : (s.onSeq fun _ => q).seq.state = .prestart ∨
                (s.onSeq fun _ => q).seq.state = .running := by
              simpa only [State.onSeq_seq, e.state] using hs
            exact ((Acts.one (.edits q e (.refl _))).trans (State.sourceHead_acts _ hs')).trans
              (State.vacantCheck_acts _)
        refine joins _ ⟨hs, rfl, rfl, rfl, rfl, rfl, rfl, rfl, .inl ?_, fun h => .inr ⟨h, rfl⟩⟩
        unfold queueCap at hlen
        simpa using hlen
      · exact .refl s
    · exact .refl s
  · exact .refl s

theorem enterRunning_acts (s : State) (h : QueueInv s) : Acts s s.enterRunning := by
  unfold State.enterRunning
  split
  · rename_i hd
    have hs := ((s.runningDue_iff).1 hd).1
    obtain ⟨_, _, hactive, _⟩ := h
    have ha : s.seq.active = none := by
      by_contra hne
      have := (hactive (Option.isSome_iff_ne_none.2 hne)).1
      rw [hs] at this
      cases this
    have runs : Acts s (s.onSeq ({ · with state := .running })) := .one (.runs hs)
    have entered : Acts s ((s.onSeq ({ · with prestartTimer := none })).enter .running .ready) :=
      runs.andCalm (by constructor <;> rfl)
    exact (entered.trans (State.proceed_acts _ rfl ha)).trans (State.vacantCheck_acts _)
  · exact .refl s

theorem tripProgress_acts (s : State) : Acts s s.tripProgress := by
  rcases s.tripProgress_cases with e | ⟨hs, hd, e⟩ <;> rw [e]
  · exact .refl s
  · exact .one (.trips hs hd)

theorem trailsEmptyReport_acts (s : State) (he : s.quench.trailsEmpty = true) :
    Acts s s.trailsEmptyReport := by
  unfold State.trailsEmptyReport
  split
  · split
    · exact Acts.andCalm (.one (.stops ‹_› he)) (.of_blocks rfl rfl rfl rfl)
    · exact .refl s
  · exact .calm (.of_blocks rfl rfl rfl rfl)
  · split
    · exact Acts.andCalm (.one (.sees true fun _ => he)) (.of_blocks rfl rfl rfl rfl)
    · exact .refl s
  · exact .refl s

theorem quenchShort_calm (s : State) (r : Ring) : Calm s (s.quenchShort r) := by
  unfold State.quenchShort
  split
  · split
    · exact .onOpen _ _
    · exact .refl s
  · exact .refl s

theorem releaseSample_acts (s : State) : Acts s s.releaseSample := by
  unfold State.releaseSample
  split
  · rename_i d hd
    split
    · exact .refl s
    · have rel : Acts s (s.onQuench (·.releases s.cfg.quench d s.travel.position s.travel.speed)) :=
        .one (.releases _ d _ _ hd)
      dsimp only
      split
      · rename_i he
        exact rel.trans (State.trailsEmptyReport_acts _ (Bool.and_eq_true_iff.1 he).1)
      · exact rel
  · exact .refl s

/-- A test of the carriage: its condition, and the raise when it has become present (R130). -/
theorem onTravel_raiseIf_acts (s : State) (f : Travel → Travel) (was now : Bool) (src : Source) :
    Acts s ((s.onTravel f).raiseIf was now src) := by
  have c : Calm s (s.onTravel f) := .of_blocks rfl rfl rfl rfl
  exact Acts.trans (.calm c) (State.raiseIf_acts _ _ _ _ _)

theorem testLimits_acts (s : State) (r : Reading) : Acts s (s.testLimits r) := by
  have soft : ∀ u : State, Acts u u.testSoft := fun u => u.onTravel_raiseIf_acts _ _ _ _
  have low : ∀ (u : State) b, Acts u (u.testLow b) := fun u b => u.onTravel_raiseIf_acts _ _ _ _
  have high : ∀ (u : State) b, Acts u (u.testHigh b) := fun u b => u.onTravel_raiseIf_acts _ _ _ _
  have enc : ∀ (u : State) b, Acts u (u.testEncoder b) := fun u b => u.onTravel_raiseIf_acts _ _ _ _
  have follow : ∀ u : State, Acts u u.testFollow := fun u => u.onTravel_raiseIf_acts _ _ _ _
  exact ((((soft s).trans (low _ _)).trans (high _ _)).trans (enc _ _)).trans (follow _)

theorem seekSample_calm (s : State) (switch : Bool) : Calm s (s.seekSample switch) := by
  unfold State.seekSample
  split
  · split
    · exact .of_blocks rfl rfl rfl rfl
    · split
      · split
        · exact .of_blocks rfl rfl rfl rfl
        · exact .refl s
      · exact .refl s
  · exact .refl s

theorem arrivalSample_calm (s : State) : Calm s s.arrivalSample := by
  unfold State.arrivalSample
  split
  · split
    · split_ifs
      · exact .of_blocks rfl rfl rfl rfl
      · exact .refl s
    · exact .refl s
  · exact .refl s

theorem brakeSample_calm (s : State) : Calm s s.brakeSample := by
  unfold State.brakeSample
  split
  · split
    · split
      · exact .of_blocks rfl rfl rfl rfl
      · exact .of_blocks rfl rfl rfl rfl
    · exact .refl s
  · exact .refl s

theorem positionSample_acts (s : State) (r : Reading) (h : QueueInv s) : Acts s (s.positionSample r) := by
  have read : Calm s (s.readSample r) := .of_blocks rfl rfl rfl rfl
  have counted : Acts s ((s.readSample r).countSample s.travel.position) :=
    Acts.andCalm (.calm read) (Calm.onOpen (s.readSample r) _)
  have quenched : Acts s ((s.readSample r).countSample s.travel.position).quenchSample :=
    ((counted.trans (State.releaseSample_acts _)).andCalm (State.quenchShort_calm _ .q1)).andCalm
      (State.quenchShort_calm _ .q2)
  unfold State.positionSample
  generalize ((s.readSample r).countSample s.travel.position).quenchSample = u at quenched ⊢
  have tacho : Calm u (u.onTravel (·.tacho u.heatingZone.isSome)) := .of_blocks rfl rfl rfl rfl
  have driven := (((quenched.andCalm tacho).trans (State.testLimits_acts _ r)).andCalm
    (State.seekSample_calm _ r.refSwitch)).andCalm (State.arrivalSample_calm _)
  dsimp only
  generalize (((u.onTravel (·.tacho u.heatingZone.isSome)).testLimits r).seekSample
    r.refSwitch).arrivalSample = w at driven ⊢
  have scanned : Acts w w.scanSample := by
    unfold State.scanSample
    split
    · exact w.stepEnd_acts (driven.queue h)
    · exact .calm w.brakeSample_calm
  exact (driven.trans scanned).andCalm (.onTravel _ _)

end State

end Sys2Proof.Machine

namespace Sys2Proof.Machine

namespace State

/-! ### Requests as chains of acts -/

theorem answer_calm (s : State) (kind tag : Byte) (a : Answer) : Calm s (s.answer kind tag a) :=
  .of_blocks rfl rfl rfl rfl

theorem notify_calm (s : State) (n : Notice) : Calm s (s.notify n) := .of_blocks rfl rfl rfl rfl

/-- A change of Sequencer state with its notice. -/
theorem enter_acts (s : State) (st : SeqState) (c : Cause)
    (h : Acts s (s.onSeq ({ · with state := st }))) : Acts s (s.enter st c) :=
  h.andCalm (notify_calm _ _)

theorem serveConfig_acts {α : Type} (s : State) (tag : Byte) (want : Nat) (items : List Int)
    (read : Option α) (write : α → State → State) (h : ∀ c u, Acts u (write c u)) :
    Acts s (s.serveConfig tag want items read write) := by
  unfold State.serveConfig
  dsimp only
  split
  · split
    · exact Acts.trans (.calm (s.answer_calm _ _ _)) (h _ _)
    · exact .calm (s.answer_calm _ _ _)
  · exact .calm (s.answer_calm _ _ _)

theorem serveRestart_acts (s : State) (tag : Byte) : Acts s (s.serveRestart tag) := by
  unfold State.serveRestart
  dsimp only
  have told := s.answer_calm 0x03#8 tag (s.restartAnswer, [])
  split
  · rename_i hok
    have restarts : Act (s.answer 0x03#8 tag (s.restartAnswer, [])) _ := .restarts hok
    exact (Acts.then (.calm told) restarts).andCalm (notify_calm _ _) |>.trans
      (State.raisePresent_acts _ _)
  · exact .calm told

theorem resting_of_isRest (st : SeqState) (h : st.isRest = true) : st.resting = true := by
  revert h
  cases st <;> decide

theorem serveHome_acts (s : State) (tag : Byte) : Acts s (s.serveHome tag) := by
  unfold State.serveHome State.homeAnswer
  have told := fun a => s.answer_calm 0x04#8 tag (a, [])
  by_cases hr : s.seq.state.isRest = true
  · simp only [hr, if_true]
    unfold State.beginHoming
    refine Acts.trans (.calm (told .ok)) (Acts.trans (.calm ?_) (enter_acts _ _ _ (.one ?_)))
    · constructor <;> rfl
    · exact .rests _ (resting_of_isRest _ hr) rfl
  · simp only [hr, Bool.false_eq_true, if_false, reduceCtorEq]
    exact .calm (told _)

theorem serveMoveTo_acts (s : State) (tag : Byte) (p : Int) (v : Nat) :
    Acts s (s.serveMoveTo tag p v) := by
  unfold State.serveMoveTo
  dsimp only
  have told := s.answer_calm 0x05#8 tag (s.moveToAnswer p v, [])
  split
  · rename_i hok
    have idle : s.seq.state = .idle := by
      unfold State.moveToAnswer at hok
      split_ifs at hok with h1 h2
      exact not_not.1 h2
    refine Acts.trans (.calm told) (Acts.trans (.calm ?_) (enter_acts _ _ _ (.one ?_)))
    · constructor <;> rfl
    · exact .rests _ (by show s.seq.state.resting = true; rw [idle]; rfl) rfl
  · exact .calm told

theorem stopEffect_acts (s : State) : Acts s s.stopEffect := by
  unfold State.stopEffect
  split
  · exact .one (.exits _ ‹_›)
  · exact s.runoutEntry_acts _ _ ‹_›
  all_goals first | exact .refl s | exact .calm (by constructor <;> rfl)

theorem startAnswer_ok (s : State) (third : Option ResultCode) (h : s.startAnswer third = .ok)
    (ht : third ≠ some .ok) : s.seq.state = .idle ∧ s.zones.count < 8 := by
  cases third with
  | some c =>
    unfold State.startAnswer at h
    dsimp only at h
    split_ifs at h
    exact absurd (congrArg some h) ht
  | none =>
    unfold State.startAnswer recordCap at h
    dsimp only at h
    split_ifs at h with _ h2 h3
    exact ⟨not_not.1 h2, Nat.lt_of_not_ge h3⟩

/-- A START that passes its checks is accepted behind its reply (R23, R24). -/
theorem start_acts (s : State) (kind tag : Byte) (third : Option ResultCode) (p : StartPlan)
    (ht : third ≠ some .ok) :
    Acts s (if (s.startReply third).1 = .ok then (s.answer kind tag (s.startReply third)).acceptStart p
      else s.answer kind tag (s.startReply third)) := by
  have told := s.answer_calm kind tag (s.startReply third)
  split
  · rename_i hok
    obtain ⟨idle, room⟩ := s.startAnswer_ok third hok ht
    exact Acts.then (.calm told) (.starts p idle room)
  · exact .calm told

theorem chooseSpin_calm (s : State) (step : ScanStep) : Calm s (s.chooseSpin step) := by
  unfold State.chooseSpin
  split
  · split
    · constructor <;> rfl
    · exact .refl s
  · exact .refl s

theorem acceptStep_acts (s : State) (step : ScanStep) (hl : s.seq.source = .link)
    (hs : s.seq.state = .prestart ∨ s.seq.state = .running) (hq : s.seq.queue.length < 32) :
    Acts s (s.acceptStep step) := by
  rw [State.acceptStep_eq]
  have joins : Acts s (s.joined step) := by
    refine .one (.edits (s.joined step).seq ⟨hs, rfl, rfl, rfl, rfl, rfl, rfl, rfl, .inl ?_,
      fun _ => .inl hl⟩ (.of_blocks rfl rfl rfl rfl))
    simpa [State.joined] using hq
  have c := (s.joined step).chooseSpin_calm step
  have hs' : ((s.joined step).chooseSpin step).seq.state = .prestart ∨
      ((s.joined step).chooseSpin step).seq.state = .running := by
    rw [c.state]
    exact hs
  exact ((joins.andCalm c).trans (State.sourceHead_acts _ hs')).trans (State.vacantCheck_acts _)

theorem serveStep_acts (s : State) (tag : Byte) (r : StepRecord) (h : QueueInv s) :
    Acts s (s.serveStep tag r) := by
  unfold State.serveStep
  dsimp only
  have told := s.answer_calm 0x09#8 tag (s.stepAnswer r)
  split
  · split
    · rename_i hok
      obtain ⟨_, hempty, _⟩ := h
      unfold State.stepAnswer queueCap at hok
      split_ifs at hok with h1 h2 h3
      have hl : s.seq.source = .link := not_not.1 h1
      have hs : s.seq.state = .prestart ∨ s.seq.state = .running := by
        by_contra hn
        rw [not_or] at hn
        obtain ⟨_, _, hsrc, _⟩ := hempty hn.1 hn.2
        rw [hl] at hsrc
        cases hsrc
      exact Acts.trans (.calm told) (State.acceptStep_acts _ _ hl hs (by simpa using h2))
    · exact .calm told
  · exact .calm told

theorem retrim_calm (s : State) : Calm s s.retrim := by
  unfold State.retrim
  split
  · split
    · constructor <;> rfl
    · exact .refl s
  · exact .refl s

theorem trimEffect_acts (s : State) (t sp : Nat) (m : TrimMethod) : Acts s (s.trimEffect t sp m) := by
  have written : Calm s (s.onSeq ({ · with shadow := some ⟨clampT t, clampS sp, m⟩ })) := by
    constructor <;> rfl
  unfold State.trimEffect
  dsimp only
  split
  · refine (Acts.calm written).andCalm ?_ |>.andCalm (State.retrim_calm _)
    constructor <;> rfl
  · exact .calm written

theorem serveClearTrip_acts (s : State) (tag : Byte) : Acts s (s.serveClearTrip tag) := by
  unfold State.serveClearTrip
  dsimp only
  have told := s.answer_calm 0x0D#8 tag (s.clearAnswer, [])
  split
  · rename_i hok
    have tripped : s.seq.state = .tripped := by
      unfold State.clearAnswer at hok
      split_ifs at hok with h1
      exact not_not.1 h1
    have rest : s.restState.isRest = true := by
      unfold State.restState
      split <;> rfl
    exact Acts.trans (.calm told) (Acts.andCalm (.one (.clears s.restState tripped rest))
      (notify_calm _ _))
  · exact .calm told

/-- Serving a request that has been taken (R188). -/
theorem serve_acts (s : State) (tag : Byte) (r : Request) (h : QueueInv s) : Acts s (s.serve tag r) := by
  cases r
  case status => exact .calm (s.answer_calm _ _ _)
  case configureMachine xs =>
    show Acts s (s.serveMachine tag xs)
    exact s.serveConfig_acts _ _ _ _ _ fun _ _ => .calm (.of_blocks rfl rfl rfl rfl)
  case configureQuench xs =>
    show Acts s (s.serveQuenchGroup tag xs)
    exact s.serveConfig_acts _ _ _ _ _ fun _ _ => .calm (.of_blocks rfl rfl rfl rfl)
  case configureMeasure xs =>
    show Acts s (s.serveMeasure tag xs)
    exact s.serveConfig_acts _ _ _ _ _ fun _ _ => .calm (.of_blocks rfl rfl rfl rfl)
  case configureTrip xs =>
    show Acts s (s.serveTripGroup tag xs)
    refine s.serveConfig_acts _ _ _ _ _ fun c u => ?_
    have written : Calm u (u.onCfg ({ · with trip := c })) := .of_blocks rfl rfl rfl rfl
    exact Acts.trans (.calm written) (State.raisePresent_acts _ _)
  case configureFlow xs =>
    show Acts s (s.serveFlowGroup tag xs)
    exact s.serveConfig_acts _ _ _ _ _ fun _ _ => .calm (.of_blocks rfl rfl rfl rfl)
  case configurePrestart xs =>
    show Acts s (s.servePrestartGroup tag xs)
    exact s.serveConfig_acts _ _ _ _ _ fun _ _ => .calm (.of_blocks rfl rfl rfl rfl)
  case restart => exact s.serveRestart_acts tag
  case home => exact s.serveHome_acts tag
  case moveTo p v => exact s.serveMoveTo_acts tag p v
  case stop => exact Acts.trans (.calm (s.answer_calm _ _ _)) (State.stopEffect_acts _)
  case startProfile p g =>
    refine s.start_acts _ tag _ _ ?_
    unfold State.profileCheck
    split <;> nofun
  case startStream g ws =>
    refine s.start_acts _ tag _ _ ?_
    unfold streamCheck
    split <;> nofun
  case step r => exact s.serveStep_acts tag r h
  case trim t sp m =>
    show Acts s (s.serveTrim tag t sp m)
    unfold State.serveTrim
    dsimp only
    split
    · exact Acts.trans (.calm (s.answer_calm _ _ _)) (State.trimEffect_acts _ _ _ _)
    · exact .calm (s.answer_calm _ _ _)
  case inhibitOn => exact .calm (.of_blocks rfl rfl rfl rfl)
  case inhibitOff => exact .calm (.of_blocks rfl rfl rfl rfl)
  case forceTrip =>
    show Acts s (s.serveForceTrip tag)
    exact Acts.trans (.calm (s.answer_calm _ _ _)) (State.raise_acts _ _ _)
  case clearTrip => exact s.serveClearTrip_acts tag
  case profileOpen p z n k g =>
    refine .calm ?_
    show Calm s (s.serveOpen tag p z n k g)
    unfold State.serveOpen
    dsimp only
    split <;> exact .of_blocks rfl rfl rfl rfl
  case profileData p rs =>
    refine .calm ?_
    show Calm s (s.serveData tag p rs)
    unfold State.serveData
    dsimp only
    split <;> exact .of_blocks rfl rfl rfl rfl
  case profileClose p =>
    refine .calm ?_
    show Calm s (s.serveClose tag p)
    unfold State.serveClose
    dsimp only
    split <;> exact .of_blocks rfl rfl rfl rfl
  case profileErase p =>
    refine .calm ?_
    show Calm s (s.serveErase tag p)
    unfold State.serveErase
    dsimp only
    split <;> exact .of_blocks rfl rfl rfl rfl
  case profileList => exact .calm (s.answer_calm _ _ _)
  case recordGet n => exact .calm (s.answer_calm _ _ _)
  case recordRelease n =>
    show Acts s (s.serveRelease tag n)
    unfold State.serveRelease
    dsimp only
    split
    · exact Acts.then (.calm (s.answer_calm _ _ _)) (.drops n)
    · exact .calm (s.answer_calm _ _ _)

theorem dispatch_acts (s : State) (h : QueueInv s) : Acts s s.dispatch := by
  unfold State.dispatch
  split
  · exact .refl s
  · rename_i r rest hr
    have taken : Calm s (s.onLink ({ · with rxBuffer := rest })) := .of_blocks rfl rfl rfl rfl
    split
    · dsimp only
      split
      · exact (Acts.calm taken).andCalm (answer_calm _ _ _ _)
      · exact (Acts.calm taken).andCalm (answer_calm _ _ _ _)
      · exact (Acts.calm taken).trans (State.serve_acts _ _ _ (h.calm taken))
    · exact .refl s

/-! ### Events as chains of acts -/

theorem stepTick_acts (s : State) (h : QueueInv s) : Acts s s.stepTick := by
  have counted : Calm s (s.onSeq fun q => { q with scanClock := q.scanClock.map (· + 1) }) := by
    constructor <;> simp
  unfold State.stepTick
  dsimp only
  split
  · exact .calm counted
  · rename_i n hn
    split
    · exact (Acts.calm counted).trans (State.stepEnd_acts _ (h.calm counted))
    · refine (Acts.calm counted).andCalm ?_
      constructor <;> simp [hn]

theorem flowLost_acts (s : State) (k : Circuit) : Acts s (s.flowLost k) := by
  have low : Calm s (s.onQuench fun q =>
      { q with circuit := q.circuit.set k (q.circuit.get k).toLow }) := by
    cases k <;> constructor <;> rfl
  unfold State.flowLost
  dsimp only
  cases k
  · exact ((Acts.calm low).andCalm (State.quenchShort_calm _ _)).trans (State.raise_acts _ _ _)
  · exact ((Acts.calm low).andCalm (State.quenchShort_calm _ _)).trans (State.raise_acts _ _ _)
  · exact (Acts.calm low).trans (State.raise_acts _ _ _)

/-- A watch timer's expiry where it runs. -/
theorem watchExpiry_acts (s : State) (k : Circuit) (p : Prop) [Decidable p] :
    Acts s (if p then s.flowLost k else s) := by
  split
  · exact s.flowLost_acts k
  · exact .refl s

theorem floodExpired_acts (s : State) : Acts s s.floodExpired := by
  have flooded : Calm s (s.onQuench (·.floodExpiry s.cfg.quench)) := by
    have rings : ∀ q : Quench, (q.floodExpiry s.cfg.quench).trail = q.trail ∧
        (q.floodExpiry s.cfg.quench).circuit = { q.circuit with q3 := .closed } := by
      intro q
      unfold Quench.floodExpiry
      dsimp only
      split
      · exact Quench.idleStart_trail _ _
      · exact ⟨rfl, rfl⟩
    obtain ⟨trail, circuit⟩ := rings s.quench
    constructor <;> simp [trail, circuit]
  unfold State.floodExpired
  split
  · dsimp only
    split
    · refine ((Acts.calm flooded).andCalm ?_).trans (State.tripProgress_acts _)
      constructor <;> rfl
    · exact .calm flooded
  · exact .refl s

theorem idleExpiry_calm (s : State) : Calm s (s.onQuench Quench.idleExpiry) := by
  have rings : ∀ q : Quench, q.idleExpiry.trail = q.trail ∧ q.idleExpiry.circuit = q.circuit := by
    intro q
    unfold Quench.idleExpiry Quench.pumpOff
    split_ifs <;> exact ⟨rfl, rfl⟩
  obtain ⟨trail, circuit⟩ := rings s.quench
  constructor <;> simp [trail, circuit]

theorem publish_acts (s : State) (c : Channel) (v : Int) : Acts s (s.publish c v) := by
  have flow : ∀ k : Circuit, Acts s (s.takeFlow k v) := fun k => by
    have valve : ∀ w : CircuitState, ∀ m, (w.flow s.cfg.quench m v).valve = w.valve := fun w m => by
      unfold CircuitState.flow
      dsimp only
      split <;> (try split) <;> rfl
    refine .calm ?_
    unfold State.takeFlow
    cases k <;> constructor <;> simp [PerCircuit.set, PerCircuit.get, valve]
  cases c
  case coilI =>
    have c : Calm s (s.onPower ({ · with coilOver := coilOverAfter s.cfg.trip s.power.coilOver v })) :=
      .of_blocks rfl rfl rfl rfl
    exact Acts.trans (.calm c) (State.raiseIf_acts _ _ _ _ _)
  case invP => exact .refl s
  case pyro =>
    have c : Calm s (s.onPower ({ · with pyroHigh := pyroHighAfter s.cfg.trip s.power.pyroHigh v })) :=
      .of_blocks rfl rfl rfl rfl
    exact Acts.trans (.calm c) (State.raiseIf_acts _ _ _ _ _)
  case qPress =>
    show Acts s (s.takePressure v)
    unfold State.takePressure
    dsimp only
    split
    · exact .refl s
    · refine Acts.trans (.calm ?_) (State.vacantCheck_acts _)
      constructor <;> rfl
  case qTemp =>
    have c : Calm s (s.onTrip
        ({ · with quenchTempHigh := quenchTempAfter s.cfg.trip s.trip.quenchTempHigh v })) := by
      constructor <;> rfl
    exact Acts.trans (.calm c) (State.raiseIf_acts _ _ _ _ _)
  case coilWater =>
    refine .calm ?_
    show Calm s (s.takeCoilWater v)
    unfold State.takeCoilWater
    constructor <;> dsimp only [State.onTrip] <;> split <;> rfl
  all_goals exact flow _

theorem burstResult_acts (s : State) (b : Burst) : Acts s (s.burstResult b) := by
  have channel : ∀ f, Calm s (s.onChannel b.channel f) := fun f => .of_blocks rfl rfl rfl rfl
  unfold State.burstResult
  split
  · split
    · exact Acts.trans (.calm (channel _)) (State.publish_acts _ _ _)
    · unfold State.faultedSample
      dsimp only
      split
      · exact (Acts.trans (.calm (channel _)) (State.publish_acts _ _ _)).trans
          (State.raiseIf_acts _ _ _ _ _)
      · exact Acts.trans (.calm (channel _)) (State.raiseIf_acts _ _ _ _ _)
  · exact .calm (channel _)

theorem conversionComplete_acts (s : State) (code : Nat) : Acts s (s.conversionComplete code) := by
  unfold State.conversionComplete
  split
  · exact .refl s
  · dsimp only
    split
    · have free : Calm s (s.onMeas ({ · with converter := none })) := .of_blocks rfl rfl rfl rfl
      exact ((Acts.calm free).trans (State.burstResult_acts _ _)).andCalm (.of_blocks rfl rfl rfl rfl)
    · exact .calm (.of_blocks rfl rfl rfl rfl)

theorem homingEnd_acts (s : State) (hs : s.seq.state = .homing) : Acts s s.homingEnd := by
  unfold State.homingEnd
  split
  · exact Acts.trans (.calm (.onTravel s _)) (enter_acts _ _ _ (.one (.rests _ (by simp [hs]; rfl) rfl)))
  · exact enter_acts _ _ _ (.one (.rests _ (by rw [hs]; rfl) rfl))

theorem trippingStopped_acts (s : State) : Acts s s.trippingStopped := by
  unfold State.trippingStopped
  split
  · exact .calm (.onTravel s _)
  · have seen : Acts s (s.onTrip fun t =>
        { t with stoppedSeen := true, trailsSeen := s.quench.trailsEmpty }) :=
      Acts.andCalm (.one (.sees s.quench.trailsEmpty id)) (by constructor <;> rfl)
    exact seen.trans (State.tripProgress_acts _)

theorem stoppingComplete_acts (s : State) : Acts s s.stoppingComplete := by
  have held : Calm s (s.onTravel Travel.orderHold) := .onTravel s _
  unfold State.stoppingComplete
  split
  · dsimp only
    split
    · exact Acts.trans (.calm held) (State.homingEnd_acts _ ‹_›)
    · rename_i hs
      exact Acts.trans (.calm held)
        (enter_acts _ _ _ (.one (.rests _ (by rw [State.onTravel_seq, hs]; rfl) rfl)))
    · split
      · unfold State.beginReturn
        split
        · have returns : Act (s.onTravel Travel.orderHold) _ := .returns ‹_›
          exact (Acts.then (.calm held) returns).andCalm (.onTravel _ _)
        · exact .calm held
      · exact .calm held
    · split
      · have completes : Act (s.onTravel Travel.orderHold) _ := .completes ‹_› ‹_›
        exact Acts.then (.calm held) completes
      · exact (Acts.calm held).andCalm (.onTravel _ _)
    · exact Acts.trans (.calm held) (State.trippingStopped_acts _)
    all_goals exact .calm held
  · exact .refl s

theorem arrived_acts (s : State) : Acts s s.arrived := by
  unfold State.arrived
  split
  · rename_i h
    split
    · refine Acts.trans (.calm (.onTravel s _)) (enter_acts _ _ _ (.one (.rests _ ?_ rfl)))
      rw [State.onTravel_seq, h.2.1]
      rfl
    · exact .refl s
  · exact .refl s

theorem returned_acts (s : State) : Acts s s.returned := by
  unfold State.returned
  split
  · rename_i hd
    obtain ⟨hs, hp, _⟩ := (s.returnDue_iff).1 hd
    split
    · exact s.activate_acts _ hs ‹_› fun _ => .inr hp
    · exact .refl s
  · exact .refl s

theorem turnStoppedActivation_acts (s : State) : Acts s s.turnStoppedActivation := by
  unfold State.turnStoppedActivation
  split
  · rename_i hd
    obtain ⟨hs, _, _, _, he, _⟩ := (s.turnActivationDue_iff).1 hd
    split
    · exact s.activate_acts _ hs ‹_› fun _ => .inl he
    · exact .refl s
  · exact .refl s

/-- A request command: discarded, served, or waiting (R187, log 6). -/
theorem request_acts (s : State) (tag : Byte) (r : Request) (h : QueueInv s) :
    Acts s (s.request tag r (·.serve tag r)) := by
  unfold State.request
  split_ifs
  · exact .refl s
  · exact s.serve_acts tag r h
  · exact .calm (.of_blocks rfl rfl rfl rfl)

end State

/-- A request command is the arrival of its request. -/
theorem exec_request (c : Instr) (tag : Byte) (r : Request) (s : State)
    (h : c.request = some (tag, r)) : exec c s = .next (s.request tag r (·.serve tag r)) := by
  cases c <;> cases h <;> rfl

/-- Every command is a chain of acts. -/
theorem exec_acts (c : Instr) (s t : State) (h : QueueInv s) (e : exec c s = .next t) : Acts s t := by
  cases hr : c.request with
  | some p =>
    rw [exec_request c p.1 p.2 s hr] at e
    cases e
    exact s.request_acts _ _ h
  | none =>
    cases c
    case reset =>
      cases e
      have resets : Act s (State.afterReset s.inputs s.pending) := .resets _ _
      exact (Acts.one resets).trans (State.raisePresent_acts _ _)
    case frameReceived => cases e; exact .calm (.of_blocks rfl rfl rfl rfl)
    case receiveGapTimeout => cases e; exact .calm (.of_blocks rfl rfl rfl rfl)
    case dispatch => cases e; exact s.dispatch_acts h
    case frameSent =>
      cases e
      unfold State.frameSent
      split <;> exact .calm (.of_blocks rfl rfl rfl rfl)
    case positionSample counts rpm a b d => cases e; exact s.positionSample_acts _ h
    case powerUpdate =>
      cases e
      exact .calm (by constructor <;> simp [State.powerUpdate, Zones.onOpen])
    case stepTimerExpiry => cases e; exact s.stepTick_acts h
    case prestartTimeout =>
      cases e
      unfold State.prestartTimeout
      split
      · rename_i hp
        exact .one (.exits _ hp.1)
      · exact .refl s
    case requestTimerExpiry ch => cases e; exact .calm (.of_blocks rfl rfl rfl rfl)
    case conversionComplete code => cases e; exact s.conversionComplete_acts code
    case calibrationTimerExpiry => cases e; exact .calm (.of_blocks rfl rfl rfl rfl)
    case provingTimerExpiry k => cases e; exact s.watchExpiry_acts k _
    case dropoutTimerExpiry k => cases e; exact s.watchExpiry_acts k _
    case floodTimerExpiry => cases e; exact s.floodExpired_acts
    case pumpIdleTimerExpiry => cases e; exact .calm s.idleExpiry_calm
    case coilWaterTimerExpiry =>
      cases e
      have c : Calm s (s.onTrip ({ · with coilWaterTimer := false, coilWaterLow := true })) := by
        constructor <;> rfl
      unfold State.coilWaterExpired
      split
      · exact Acts.trans (.calm c) (State.raiseIf_acts _ _ _ _ _)
      · exact .refl s
    case lowCountReached =>
      cases e
      unfold State.lowCountReached
      split
      · exact Acts.trans (.calm (.onTravel s _)) (State.raise_acts _ _ _)
      · exact .refl s
    case readyInputChange level =>
      cases e
      have c : Calm s ((s.onInputs ({ · with ready := level })).onPower
          fun p => { p with readySeen := p.readySeen || (p.enable && level) }) := .of_blocks rfl rfl rfl rfl
      exact Acts.trans (.calm c) (State.raiseIf_acts _ _ _ _ _)
    case faultInputChange level =>
      cases e
      have c : Calm s (s.onInputs ({ · with fault := level })) := .of_blocks rfl rfl rfl rfl
      exact Acts.trans (.calm c) (State.raiseIf_acts _ _ _ _ _)
    case emergencyStopInput level =>
      cases e
      have c : Calm s (s.onInputs ({ · with estop := level })) := .of_blocks rfl rfl rfl rfl
      exact Acts.trans (.calm c) (State.raiseIf_acts _ _ _ _ _)
    case encoderFaultInput level =>
      cases e
      have c : Calm s (s.onInputs ({ · with encoder := level })) := .of_blocks rfl rfl rfl rfl
      exact Acts.trans (.calm c) (State.onTravel_raiseIf_acts _ _ _ _ _)
    case stoppingComplete => cases e; exact s.stoppingComplete_acts
    case arrived => cases e; exact s.arrived_acts
    case returned => cases e; exact s.returned_acts
    case turnStoppedActivation => cases e; exact s.turnStoppedActivation_acts
    case enterRunning => cases e; exact s.enterRunning_acts h
    case admission => cases e; exact s.admission_acts
    case loaderAppend => cases e; exact s.loaderAppend_acts
    case byteReceived b => cases e; exact .calm (.of_blocks rfl rfl rfl rfl)
    all_goals cases hr

/-- A step of the part is a chain of acts, from every state within the queue's bounds. -/
theorem step_acts (s t : State) (h : QueueInv s) (e : step s = .next t) : Acts s t := by
  unfold step at e
  split at e
  · cases e
    exact .refl s
  · rename_i c rest _
    have taken : Calm s { s with pending := rest } := .of_blocks rfl rfl rfl rfl
    exact (Acts.calm taken).trans (exec_acts c _ t (h.calm taken) e)

/-- Settles O8: every act of a step keeps the queue's bounds. -/
theorem queueBoundsKept : Obligations.QueueBoundsKept :=
  fun s t h e => (step_acts s t h e).queue h

end Sys2Proof.Machine

namespace Sys2Proof.Machine

/-! ### A latching and a further trip, by what they leave -/

/-- A latching trip is its orders, and at most the entry to TRIPPED behind them (R137, R144, R145). -/
theorem State.latchingTrip_ordered (s : State) (src : Source) (ch : Option Channel) :
    ∃ u st, TripOrdered s u src ch st ∧
      (st = .tripping ∧ s.latchingTrip src ch = u ∨ s.latchingTrip src ch = u.enterTripped) := by
  cases hrest : s.seq.state.isRest
  · refine ⟨_, _, (s.tripMoving_ordered src ch).1, ?_⟩
    rw [s.latchingTrip_moving src ch hrest]
    rcases (s.tripMoving src ch).tripProgress_cases with e | ⟨_, _, e⟩
    · exact .inl ⟨rfl, e⟩
    · exact .inr e
  · exact ⟨_, _, (s.tripResting_ordered src ch).1, .inr (s.latchingTrip_resting src ch hrest)⟩

/-- A further trip leaves Sequencer, records and latch; it may replace the response in TRIPPING, and end it (R138, R146, R147). -/
theorem State.furtherTrip_kept (s : State) (src : Source) :
    ∃ u : State, (s.furtherTrip src = u ∨
        (s.seq.state = .tripping ∧ s.furtherTrip src = u.enterTripped)) ∧
      u.seq = s.seq ∧ u.zones = s.zones ∧ u.trip.latch = s.trip.latch ∧
      u.trip.record.map (·.state) = s.trip.record.map (·.state) ∧
      (u.trip.response = s.trip.response ∨
        (s.seq.state = .tripping ∧ u.trip.response.isSome = true)) := by
  have further : (s.trip.record.map (·.further src)).map (·.state) = s.trip.record.map (·.state) := by
    cases s.trip.record <;> rfl
  have progress : ∀ u : State, u.seq = s.seq → u.tripProgress = u ∨
      (s.seq.state = .tripping ∧ u.tripProgress = u.enterTripped) := fun u hu => by
    rcases u.tripProgress_cases with e | ⟨hs, _, e⟩
    · exact .inl e
    · exact .inr ⟨hu ▸ hs, e⟩
  rcases s.furtherTrip_cases src with e | ⟨hs, e | e⟩ | ⟨_, e⟩ <;> rw [e]
  · exact ⟨_, .inl rfl, rfl, rfl, rfl, further, .inl rfl⟩
  · exact ⟨_, progress _ rfl, rfl, rfl, rfl, further, .inr ⟨hs, rfl⟩⟩
  · exact ⟨_, progress _ rfl, rfl, rfl, rfl, further, .inr ⟨hs, rfl⟩⟩
  · exact ⟨_, .inl rfl, rfl, rfl, rfl, further, .inl rfl⟩

/-- Leaving Active changes that step, its timer and what Quench Unit and record hold of it (R35). -/
theorem State.clearActive_kept (s : State) (a : Admitted) :
    (s.clearActive a).seq = { s.seq with active := none, stepTimer := none } ∧
      (s.clearActive a).trip = s.trip ∧
      (s.clearActive a).zones.closed = s.zones.closed ∧
      (s.clearActive a).zones.openRec.isSome = s.zones.openRec.isSome := by
  unfold State.clearActive
  dsimp only
  split <;> simp [Zones.onOpen]

theorem SeqState.isRest_iff (st : SeqState) :
    st.isRest = true ↔ st = .unreferenced ∨ st = .idle := by cases st <;> decide

/-- The states without a scan or a trip are none of the others. -/
theorem SeqState.resting_away {st : SeqState} (h : st.resting = true) :
    st.isScan = false ∧ (st ≠ .running ∧ st ≠ .runout) ∧ st ≠ .tripping ∧ st ≠ .tripped := by
  revert h
  cases st <;> decide

/-! ### Latch, record and response (R137, R138, R149) -/

namespace LatchInv

theorem of_same {s t : State} (h : LatchInv s) (hstate : t.seq.state = s.seq.state)
    (hlatch : t.trip.latch = s.trip.latch) (hrecord : t.trip.record.isSome = s.trip.record.isSome)
    (hresponse : t.trip.response.isSome = s.trip.response.isSome) : LatchInv t := by
  unfold LatchInv at h ⊢
  rw [hstate, hlatch, hrecord, hresponse]
  exact h

theorem calm {s t : State} (h : LatchInv s) (c : Calm s t) : LatchInv t := by
  refine h.of_same c.state c.latch ?_ (congrArg _ c.response)
  simpa using congrArg Option.isSome c.record

/-- Outside TRIPPING and TRIPPED the latch is clear, and stays so from one such state to another. -/
theorem of_clear {s t : State} (h : LatchInv s) (hs : s.seq.state ≠ .tripping ∧ s.seq.state ≠ .tripped)
    (ht : t.seq.state ≠ .tripping ∧ t.seq.state ≠ .tripped) (htrip : t.trip = s.trip) : LatchInv t := by
  obtain ⟨hlatch, hrest⟩ := h
  refine ⟨?_, htrip ▸ hrest⟩
  rw [htrip, hlatch]
  simp [hs, ht]

theorem not_tripping {s : State} (h : LatchInv s) (hl : s.trip.latch = false) :
    s.seq.state ≠ .tripping ∧ s.seq.state ≠ .tripped := by
  obtain ⟨hlatch, _⟩ := h
  rw [hl] at hlatch
  simpa using hlatch

theorem enterTripped {s : State} (h : LatchInv s) (hs : s.seq.state = .tripping) :
    LatchInv s.enterTripped := by
  obtain ⟨hlatch, hrest⟩ := h
  refine ⟨?_, ?_⟩
  · simp [hlatch, hs]
  · simpa using hrest

theorem latchingTrip (s : State) (src : Source) (ch : Option Channel) :
    LatchInv (s.latchingTrip src ch) := by
  obtain ⟨u, st, ordered, e⟩ := s.latchingTrip_ordered src ch
  obtain ⟨r, hr, _⟩ := ordered.record
  rcases e with ⟨rfl, e⟩ | e <;> rw [e]
  · refine ⟨?_, ?_, ?_⟩ <;> simp [ordered.latch, ordered.seq, hr, ordered.response, Seq.flushed]
  · refine ⟨?_, ?_, ?_⟩ <;> simp [ordered.latch, hr, ordered.response]

theorem furtherTrip {s : State} (h : LatchInv s) (src : Source) : LatchInv (s.furtherTrip src) := by
  obtain ⟨u, e, seq, _, latch, record, response⟩ := s.furtherTrip_kept src
  have some' : u.trip.record.isSome = s.trip.record.isSome := by
    simpa using congrArg Option.isSome record
  have held : LatchInv u := by
    refine h.of_same (congrArg _ seq) latch some' ?_
    rcases response with hr | ⟨hs, hr⟩
    · exact congrArg _ hr
    · obtain ⟨hlatch, _, hresp⟩ := h
      rw [hr, hresp, hlatch.2 (.inl hs)]
  rcases e with e | ⟨hs, e⟩ <;> rw [e]
  · exact held
  · exact held.enterTripped (seq ▸ hs)

theorem onTrails {s : State} (h : LatchInv s) (f : Quench → Quench) : LatchInv (s.onTrails f) := by
  have same : LatchInv (s.onQuench f) := h.of_same rfl rfl rfl rfl
  rcases s.onTrails_cases f with ⟨e, _⟩ | ⟨_, e⟩ | ⟨_, e⟩ <;> rw [e]
  · exact same
  · exact same.furtherTrip _
  · exact latchingTrip _ _ _

/-- Every act keeps latch, record and response together. -/
theorem act (s t : State) (a : Act s t) (h : LatchInv s) : LatchInv t := by
  cases a with
  | calm c => exact h.calm c
  | latches src ch => exact latchingTrip _ _ _
  | furthers src => exact h.furtherTrip src
  | trips hs => exact h.enterTripped hs
  | clears st hs hst =>
    rcases (SeqState.isRest_iff st).1 hst with rfl | rfl <;> exact ⟨by simp [TripUnit.cleared], rfl, rfl⟩
  | rests st hs hst =>
    exact h.of_clear (SeqState.resting_away hs).2.2 (SeqState.resting_away hst).2.2 rfl
  | restarts =>
    refine ⟨?_, rfl, rfl⟩
    simp only [State.restarted, TripUnit.reset, Seq.restart]
    split <;> simp
  | resets i p => exact ⟨by simp [State.afterReset, TripUnit.reset, Seq.reset], rfl, rfl⟩
  | starts p hs hc =>
    rw [State.acceptStart_eq]
    exact h.of_clear (by simp [hs]) (by simp [StartedScan]) rfl
  | exits c hs => exact h.of_clear (by simp [hs]) (by simp) (by simp)
  | runs hs => exact h.of_clear (by simp [hs]) (by simp) rfl
  | edits q e c => exact (of_same (t := { s with seq := q }) h e.state rfl rfl rfl).calm c
  | admits => exact h.of_same rfl rfl rfl rfl
  | activates a hs hn ht c =>
    have held : LatchInv (s.onSeq (·.activated a)) :=
      h.of_same (by simp [Seq.activated_eq]) rfl rfl rfl
    rcases State.handQuench_cases _ a with ⟨_, x, y, e⟩ | e
    · rw [e]
      exact (held.calm c).onTrails _
    · exact (held.calm c).calm e
  | idles a ha =>
    obtain ⟨seq, trip, _⟩ := s.clearActive_kept a
    exact h.of_same (by rw [seq]) (by rw [trip]) (by rw [trip]) (by rw [trip])
  | drains => exact h.of_same rfl rfl rfl rfl
  | stops => exact h.of_same rfl rfl rfl rfl
  | returns => exact h.of_same rfl rfl rfl rfl
  | ends c pos hs =>
    have started : LatchInv (s.runoutStart c) :=
      h.of_clear (by simp [hs]) (by simp [State.runoutStart, Seq.flushed]) rfl
    exact started.onTrails _
  | completes hs => exact h.of_clear (by simp [hs]) (by simp) (by simp)
  | releases => exact h.of_same rfl rfl rfl rfl
  | sees => exact h.of_same rfl rfl rfl rfl
  | drops => exact h.of_same rfl rfl rfl rfl

end LatchInv

/-! ### The open record (R34, R138, R165) -/

/-- A close leaves no record open and moves the open one to the list (R160). -/
theorem Zones.close_count (z : Zones) (c : EndCause) (time : Nat) (t : Option TripRecord) :
    (z.close c time t).openRec = none ∧ (z.close c time t).count = z.count := by
  unfold Zones.close Zones.count
  cases h : z.openRec <;> simp [h]

theorem Zones.onOpen_count (z : Zones) (f : OpenRecord → OpenRecord) :
    (z.onOpen f).openRec.isSome = z.openRec.isSome ∧ (z.onOpen f).count = z.count := by
  unfold Zones.onOpen Zones.count
  simp

namespace RecordInv

theorem of_same {s t : State} (h : RecordInv s) (hstate : t.seq.state = s.seq.state)
    (hclock : t.seq.scanClock.isSome = s.seq.scanClock.isSome)
    (hrecord : t.trip.record.map (·.state) = s.trip.record.map (·.state))
    (hclosed : t.zones.closed.length ≤ s.zones.closed.length)
    (hopen : t.zones.openRec.isSome = s.zones.openRec.isSome) : RecordInv t := by
  obtain ⟨hscan, hopened, htripping, hc, hcount⟩ := h
  refine ⟨?_, ?_, ?_, ?_, ?_⟩
  · rwa [hstate, hopen]
  · rwa [hstate, hopen]
  · intro e
    rw [hopen, htripping (hstate ▸ e)]
    cases hs : s.trip.record <;> cases ht : t.trip.record <;> simp_all
  · rw [hclock, hopen, hc]
  · unfold Zones.count at hcount ⊢
    rw [hopen]
    omega

theorem calm {s t : State} (h : RecordInv s) (c : Calm s t) : RecordInv t :=
  h.of_same c.state c.clock c.record (by rw [c.closed]) c.opened

/-- Outside the scan and TRIPPING no record is open and no scan clock runs. -/
theorem closed {s : State} (h : RecordInv s) (hs : s.seq.state.isScan = false)
    (ht : s.seq.state ≠ .tripping) : s.zones.openRec = none ∧ s.seq.scanClock = none := by
  obtain ⟨_, hopened, _, hc, _⟩ := h
  have none' : s.zones.openRec = none := by
    by_contra hne
    rcases hopened (Option.isSome_iff_ne_none.2 hne) with e | e
    · rw [hs] at e; cases e
    · exact ht e
  rw [none'] at hc
  exact ⟨none', by simpa using hc⟩

/-- A state without scan and trip, no record open. -/
theorem of_closed {t : State} (hs : t.seq.state.isScan = false) (ht : t.seq.state ≠ .tripping)
    (hopen : t.zones.openRec = none) (hclock : t.seq.scanClock = none) (hcount : t.zones.count ≤ 8) :
    RecordInv t :=
  ⟨by simp [hs], by simp [hopen], fun e => absurd e ht, by simp [hopen, hclock], hcount⟩

/-- From one state of a scan to another. -/
theorem of_scan {s t : State} (h : RecordInv s) (hs : s.seq.state.isScan = true)
    (ht : t.seq.state.isScan = true) (hclock : t.seq.scanClock.isSome = s.seq.scanClock.isSome)
    (hopen : t.zones.openRec.isSome = s.zones.openRec.isSome) (hcount : t.zones.count = s.zones.count) :
    RecordInv t := by
  obtain ⟨hscan, _, _, hc, hn⟩ := h
  refine ⟨fun _ => hopen.trans (hscan hs), fun _ => .inl ht, fun e => ?_, ?_, hcount ▸ hn⟩
  · rw [e] at ht; cases ht
  · rw [hclock, hopen, hc]

theorem enterTripped {s : State} (h : s.zones.count ≤ 8) : RecordInv s.enterTripped := by
  obtain ⟨hopen, hcount⟩ :=
    s.zones.close_count .tripped (s.seq.scanClock.getD 0) s.trip.record
  refine of_closed ?_ ?_ ?_ ?_ ?_ <;> simp [SeqState.isScan, hopen, hcount, h]

theorem latchingTrip {s : State} (h : RecordInv s) (hs : s.seq.state ≠ .tripping) (src : Source)
    (ch : Option Channel) : RecordInv (s.latchingTrip src ch) := by
  obtain ⟨hscan, hopened, _, hc, hn⟩ := h
  obtain ⟨u, st, ordered, e⟩ := s.latchingTrip_ordered src ch
  obtain ⟨r, hr, _, _, hstate, _⟩ := ordered.record
  obtain ⟨hopen, hcount⟩ := s.zones.onOpen_count OpenRecord.noZone
  rcases e with ⟨rfl, e⟩ | e <;> rw [e]
  · have clock : u.seq.scanClock = s.seq.scanClock := by rw [ordered.seq]; rfl
    have state : u.seq.state = .tripping := by rw [ordered.seq]; rfl
    have told : s.zones.openRec.isSome = s.seq.state.isScan := by
      rw [Bool.eq_iff_iff]
      exact ⟨fun ho => (hopened ho).resolve_right hs, hscan⟩
    refine ⟨?_, fun _ => .inr state, fun _ => ?_, ?_, ?_⟩
    · simp [state, SeqState.isScan]
    · rw [ordered.zones, hopen, hr, told]
      exact congrArg SeqState.isScan hstate.symm
    · rw [ordered.zones, hopen, clock, hc]
    · rw [ordered.zones, hcount]; exact hn
  · exact enterTripped (by rw [ordered.zones, hcount]; exact hn)

theorem furtherTrip {s : State} (h : RecordInv s) (src : Source) : RecordInv (s.furtherTrip src) := by
  obtain ⟨u, e, seq, zones, _, record, _⟩ := s.furtherTrip_kept src
  have held : RecordInv u := h.of_same (by rw [seq]) (by rw [seq]) record (by rw [zones]) (by rw [zones])
  rcases e with e | ⟨_, e⟩ <;> rw [e]
  · exact held
  · obtain ⟨_, _, _, _, hn⟩ := held
    exact enterTripped hn

theorem onTrails {s : State} (h : RecordInv s) (hl : LatchInv s) (f : Quench → Quench) :
    RecordInv (s.onTrails f) := by
  have same : RecordInv (s.onQuench f) := h.of_same rfl rfl rfl (Nat.le_refl _) rfl
  rcases s.onTrails_cases f with ⟨e, _⟩ | ⟨_, e⟩ | ⟨hc, e⟩ <;> rw [e]
  · exact same
  · exact same.furtherTrip _
  · exact same.latchingTrip (hl.not_tripping hc).1 _ _

/-- Every act keeps the open record with the scan, the latch standing with its states. -/
theorem act (s t : State) (a : Act s t) (hl : LatchInv s) (h : RecordInv s) : RecordInv t := by
  have parts := h
  obtain ⟨hscan, hopened, htripping, hc, hn⟩ := parts
  cases a with
  | calm c => exact h.calm c
  | latches src ch hlatch => exact h.latchingTrip (hl.not_tripping hlatch).1 src ch
  | furthers src => exact h.furtherTrip src
  | trips hs => exact enterTripped hn
  | clears st hs hst =>
    obtain ⟨hopen, hclock⟩ := h.closed (by rw [hs]; rfl) (by simp [hs])
    rcases (SeqState.isRest_iff st).1 hst with rfl | rfl <;> exact of_closed rfl nofun hopen hclock hn
  | rests st hs hst =>
    obtain ⟨noScan, _, noTrip⟩ := SeqState.resting_away hs
    obtain ⟨noScan', _, noTrip'⟩ := SeqState.resting_away hst
    obtain ⟨hopen, hclock⟩ := h.closed noScan noTrip.1
    exact of_closed noScan' noTrip'.1 hopen hclock hn
  | restarts hok =>
    have away : s.seq.state.isScan = false ∧ s.seq.state ≠ .tripping := by
      unfold State.restartAnswer at hok
      cases e : s.seq.state <;> simp [e, SeqState.isRest] at hok <;> exact ⟨rfl, nofun⟩
    obtain ⟨hopen, _⟩ := h.closed away.1 away.2
    refine of_closed ?_ ?_ hopen rfl hn <;> simp only [State.restarted, Seq.restart] <;> split <;> simp [SeqState.isScan]
  | resets i p => exact of_closed rfl nofun rfl rfl (Nat.zero_le _)
  | starts p hs hroom =>
    obtain ⟨hopen, _⟩ := h.closed (by rw [hs]; rfl) (by simp [hs])
    rw [State.acceptStart_eq]
    unfold Zones.count at hroom
    rw [hopen] at hroom
    refine ⟨fun _ => rfl, fun _ => .inl rfl, nofun, rfl, ?_⟩
    simp [StartedScan, Zones.count]
    simpa using hroom
  | exits c hs =>
    obtain ⟨hopen, hcount⟩ :=
      (s.zones.onOpen OpenRecord.noZone).close_count c (s.seq.scanClock.getD 0) none
    refine of_closed ?_ ?_ ?_ ?_ ?_ <;> simp [SeqState.isScan, hopen, hcount, Zones.onOpen_count, hn]
  | runs hs => exact h.of_scan (by rw [hs]; rfl) rfl rfl rfl rfl
  | edits q e c =>
    exact (of_same (t := { s with seq := q }) h e.state (by rw [e.clock]) rfl (Nat.le_refl _) rfl).calm c
  | admits => exact h.of_same rfl rfl rfl (Nat.le_refl _) rfl
  | activates a hs hn' ht c =>
    have held : RecordInv (s.onSeq (·.activated a)) :=
      h.of_same (by simp [Seq.activated_eq]) (by simp [Seq.activated_eq]) rfl (Nat.le_refl _) rfl
    have latch : LatchInv (s.onSeq (·.activated a)) :=
      hl.of_same (by simp [Seq.activated_eq]) rfl rfl rfl
    rcases State.handQuench_cases _ a with ⟨_, x, y, e⟩ | e
    · rw [e]
      exact (held.calm c).onTrails (latch.calm c) _
    · exact (held.calm c).calm e
  | idles a ha =>
    obtain ⟨seq, trip, closed, opened⟩ := s.clearActive_kept a
    exact h.of_same (by rw [seq]) (by rw [seq]) (by rw [trip]) (by rw [closed]) opened
  | drains => exact h.of_same rfl rfl rfl (Nat.le_refl _) rfl
  | stops => exact h.of_same rfl rfl rfl (Nat.le_refl _) rfl
  | returns => exact h.of_same rfl rfl rfl (Nat.le_refl _) rfl
  | ends c pos hs =>
    obtain ⟨hopen, hcount⟩ := s.zones.onOpen_count OpenRecord.noZone
    have started : RecordInv (s.runoutStart c) := h.of_scan (by rw [hs]; rfl) rfl rfl hopen hcount
    have latch : LatchInv (s.runoutStart c) :=
      hl.of_clear (by simp [hs]) (by simp [State.runoutStart, Seq.flushed]) rfl
    exact started.onTrails latch _
  | completes hs =>
    obtain ⟨hopen, hcount⟩ :=
      s.zones.close_count (s.seq.lastEnd.getD .complete) (s.seq.scanClock.getD 0) none
    refine of_closed ?_ ?_ ?_ ?_ ?_ <;> simp [SeqState.isScan, hopen, hcount, hn]
  | releases => exact h.of_same rfl rfl rfl (Nat.le_refl _) rfl
  | sees => exact h.of_same rfl rfl rfl (Nat.le_refl _) rfl
  | drops n => exact h.of_same rfl rfl rfl (List.length_filter_le _ _) rfl

end RecordInv

/-- Settles O10: every act of a step keeps the latch with its states and the open record with the scan. -/
theorem recordOpenInScans : Obligations.RecordOpenInScans := by
  intro s t hq hl hr e
  have kept := (step_acts s t hq e).keeps (P := fun u => LatchInv u ∧ RecordInv u)
    (fun u v a ⟨hl', hr'⟩ => ⟨LatchInv.act u v a hl', RecordInv.act u v a hl' hr'⟩) ⟨hl, hr⟩
  exact kept.2

end Sys2Proof.Machine

namespace Sys2Proof.Machine

/-! ### The release of a trail (R97 to R99) -/

theorem PerCircuit.set_get {α : Type} (p : PerCircuit α) (k : Circuit) : p.set k (p.get k) = p := by
  cases k <;> rfl

theorem PerCircuit.set_set {α : Type} (p : PerCircuit α) (k : Circuit) (x y : α) :
    (p.set k x).set k y = p.set k y := by
  cases k <;> rfl

/-- Release takes the entries up to the first not due, and passes them to the circuit (R99). -/
theorem releaseGo_eq (c : QuenchCfg) (k : Circuit) (due : Int → Bool) (es : List TrailEntry) (q : Quench) :
    releaseGo c k due es q = (es.dropWhile (due ·.pos), { q with
      circuit := q.circuit.set k
        ((q.circuit.get k).passed c k (es.takeWhile (due ·.pos))) }) := by
  induction es generalizing q with
  | nil =>
    show ([], q) = ([], { q with circuit := q.circuit.set k (q.circuit.get k) })
    rw [PerCircuit.set_get]
  | cons e es ih =>
    unfold releaseGo
    by_cases hd : due e.pos = true
    · have step : (if e.on then q.openValve c k else q.closeValve k) = { q with
          circuit := q.circuit.set k (if e.on then (q.circuit.get k).opened c k else .closed) } := by
        split
        · exact q.openValve_eq c k
        · rfl
      have passes : ((q.circuit.get k).passed c k (e :: es.takeWhile (due ·.pos))) =
          (if e.on then (q.circuit.get k).opened c k else CircuitState.closed).passed c k
            (es.takeWhile (due ·.pos)) := rfl
      rw [if_pos hd, ih, step]
      simp [hd, passes, PerCircuit.set_set]
    · have stays : ((q.circuit.get k).passed c k []) = q.circuit.get k := rfl
      rw [if_neg hd]
      simp [hd, stays, PerCircuit.set_get]

/-- The entry at a position is due at its ring's spray position with lead (R97 to R99). -/
def ringDue (c : QuenchCfg) (d : Dir) (pos v : Int) (r : Ring) (x : Int) : Bool :=
  releaseDue d (sprayPosition d pos (c.offset.get r)) (leadDistance v (c.lead.get r)) x

/-- The release of a ring: trail and circuit of that ring, and nothing else (R99). -/
theorem Quench.release_eq (q : Quench) (c : QuenchCfg) (d : Dir) (pos v : Int) (r : Ring) :
    q.release c d pos v r = { q with
      trail := q.trail.set r (Trail.settle { q.trail.get r with
        entries := (q.trail.get r).entries.dropWhile (ringDue c d pos v r ·.pos) })
      circuit := q.circuit.set r.circuit ((q.circuit.get r.circuit).passed c r.circuit
        ((q.trail.get r).entries.takeWhile (ringDue c d pos v r ·.pos))) } := by
  unfold Quench.release
  dsimp only
  rw [releaseGo_eq]
  rfl

/-- The valve is left as the last entry that passed asks (R99). -/
theorem CircuitState.passed_valve (w : CircuitState) (c : QuenchCfg) (k : Circuit)
    (gone : List TrailEntry) : (w.passed c k gone).valve = lastOf w.valve gone := by
  induction gone generalizing w with
  | nil => rfl
  | cons e es ih =>
    have h : (w.passed c k (e :: es)) =
        (if e.on then w.opened c k else CircuitState.closed).passed c k es := rfl
    rw [h, ih, lastOf_cons]
    cases he : e.on
    · rfl
    · simp [CircuitState.opened_valve]

theorem alternates_concat (v : Bool) (xs ys : List TrailEntry) :
    alternates v (xs ++ ys) = (alternates v xs && alternates (lastOf v xs) ys) := by
  induction xs generalizing v with
  | nil => rfl
  | cons x xs ih => simp [alternates, ih, lastOf_cons, Bool.and_assoc]

theorem lastOf_concat (v : Bool) (xs ys : List TrailEntry) :
    lastOf v (xs ++ ys) = lastOf (lastOf v xs) ys := by
  induction xs generalizing v with
  | nil => rfl
  | cons x xs ih => rw [List.cons_append, lastOf_cons, ih, lastOf_cons]

/-! ### Rings of a pass (R93, R95, R101) -/

theorem Dir.beyond_trans (d : Dir) {a b c : Int} (h : d.beyond b a = true) (h' : d.beyond c b = true) :
    d.beyond c a = true := by
  cases d <;> simp only [Dir.beyond, decide_eq_true_eq] at h h' ⊢ <;> omega

/-- The entries lie one beyond the other in the pass direction (R93). -/
def Trail.Monotone (t : Trail) (d : Dir) : Prop :=
  t.entries.Pairwise fun a b => d.beyond b.pos a.pos = true

/-- An entry placed in the pass direction keeps the order: it joins beyond the last, or the last leaves (R95). -/
theorem Trail.place_monotone (t : Trail) (d : Dir) (e : TrailEntry) (h : t.Monotone d) :
    (t.place (some d) e).Monotone d := by
  have joins : (∀ a ∈ t.entries, d.beyond e.pos a.pos = true) → (t.append e).Monotone d := by
    intro hall
    rcases Trail.append_cases t e with ⟨ha, _⟩ | ⟨ha, _⟩ <;> rw [ha]
    · exact List.pairwise_append.2 ⟨h, List.pairwise_singleton _ _, fun a ha b hb => by
        rw [List.mem_singleton.1 hb]
        exact hall a ha⟩
    · exact h
  unfold Trail.place
  split
  · rename_i hl
    rw [List.getLast?_eq_none_iff] at hl
    exact joins (by simp [hl])
  · rename_i last hl
    obtain ⟨init, hi⟩ := List.getLast?_eq_some_iff.1 hl
    dsimp only
    split
    · rename_i hb
      refine joins fun a ha => ?_
      unfold Trail.Monotone at h
      rw [hi] at h ha
      rcases List.mem_append.1 ha with hm | hm
      · exact d.beyond_trans ((List.pairwise_append.1 h).2.2 a hm last (by simp)) hb
      · rw [List.mem_singleton.1 hm]
        exact hb
    · unfold Trail.Monotone
      rw [Trail.settle_entries]
      exact h.sublist (List.dropLast_sublist _)

/-- Rings fit for a pass in a direction: bounded and alternating trails, monotone in the pass, quiet without one (R46, R93). -/
structure Quench.Sound (q : Quench) (d : Option Dir) : Prop where
  alternate : ∀ r : Ring, (q.trail.get r).entries.length ≤ 16 ∧
    alternates (q.circuit.get r.circuit).valve (q.trail.get r).entries = true
  monotone : ∀ e, d = some e → ∀ r : Ring, (q.trail.get r).Monotone e
  quiet : d = none → q.ringsQuiet

/-- Trails and ring valves are the same. -/
structure Quench.SameRings (q q' : Quench) : Prop where
  trail : q'.trail = q.trail
  valve1 : q'.circuit.q1.valve = q.circuit.q1.valve
  valve2 : q'.circuit.q2.valve = q.circuit.q2.valve

namespace Quench

theorem trailsEmpty_iff (q : Quench) :
    q.trailsEmpty = true ↔ ∀ r : Ring, (q.trail.get r).entries = [] := by
  unfold Quench.trailsEmpty
  rw [Bool.and_eq_true, List.isEmpty_iff, List.isEmpty_iff]
  exact ⟨fun ⟨h1, h2⟩ r => by cases r <;> assumption, fun h => ⟨h .q1, h .q2⟩⟩

theorem ringsQuiet_iff (q : Quench) : q.ringsQuiet ↔ ∀ r : Ring,
    (q.trail.get r).entries = [] ∧ (q.circuit.get r.circuit).valve = false := by
  unfold Quench.ringsQuiet
  rw [trailsEmpty_iff]
  exact ⟨fun ⟨h, h1, h2⟩ r => ⟨h r, by cases r <;> assumption⟩,
    fun h => ⟨fun r => (h r).1, (h .q1).2, (h .q2).2⟩⟩

theorem trailFull_iff (q : Quench) :
    q.trailFull = false ↔ ∀ r : Ring, (q.trail.get r).fullMark = false := by
  unfold Quench.trailFull
  rw [Bool.or_eq_false_iff]
  exact ⟨fun ⟨h1, h2⟩ r => by cases r <;> assumption, fun h => ⟨h .q1, h .q2⟩⟩

theorem endsOff_iff (q : Quench) : q.endsOff ↔ ∀ r : Ring, q.lastState r = false :=
  ⟨fun ⟨h1, h2⟩ r => by cases r <;> assumption, fun h => ⟨h .q1, h .q2⟩⟩

theorem ringsQuiet.last {q : Quench} (h : q.ringsQuiet) (r : Ring) : q.lastState r = false := by
  obtain ⟨he, hv⟩ := q.ringsQuiet_iff.1 h r
  rw [Quench.lastState_eq, he]
  exact hv

theorem ringsQuiet.endsOff {q : Quench} (h : q.ringsQuiet) : q.endsOff := ⟨h.last .q1, h.last .q2⟩

/-- Empty trails that end OFF stand over closed valves (R46, R93). -/
theorem endsOff.ringsQuiet {q : Quench} (h : q.endsOff) (he : q.trailsEmpty = true) : q.ringsQuiet := by
  rw [ringsQuiet_iff]
  intro r
  have empty := q.trailsEmpty_iff.1 he r
  have last := q.endsOff_iff.1 h r
  rw [Quench.lastState_eq, empty] at last
  exact ⟨empty, last⟩

theorem ringsQuiet.sound {q : Quench} (h : q.ringsQuiet) (d : Option Dir) : q.Sound d := by
  refine ⟨fun r => ?_, fun e _ r => ?_, fun _ => h⟩
  · rw [(q.ringsQuiet_iff.1 h r).1]
    exact ⟨Nat.zero_le _, rfl⟩
  · unfold Trail.Monotone
    rw [(q.ringsQuiet_iff.1 h r).1]
    exact List.Pairwise.nil

/-- Over empty trails a pass may begin in either direction (R43). -/
theorem Sound.turned {q : Quench} {d : Option Dir} (h : q.Sound d) (he : q.trailsEmpty = true)
    {d' : Option Dir} (hd : d' ≠ none) : q.Sound d' := by
  refine ⟨h.alternate, fun e _ r => ?_, fun hn => absurd hn hd⟩
  unfold Trail.Monotone
  rw [q.trailsEmpty_iff.1 he r]
  exact List.Pairwise.nil

namespace SameRings

theorem refl (q : Quench) : q.SameRings q := ⟨rfl, rfl, rfl⟩

theorem valve {q q' : Quench} (h : q.SameRings q') (r : Ring) :
    (q'.circuit.get r.circuit).valve = (q.circuit.get r.circuit).valve := by
  cases r
  · exact h.valve1
  · exact h.valve2

theorem ringsQuiet {q q' : Quench} (h : q.SameRings q') (hq : q.ringsQuiet) : q'.ringsQuiet := by
  rw [ringsQuiet_iff] at hq ⊢
  intro r
  rw [h.trail, h.valve r]
  exact hq r

theorem endsOff {q q' : Quench} (h : q.SameRings q') (hq : q.endsOff) : q'.endsOff := by
  rw [endsOff_iff] at hq ⊢
  intro r
  rw [Quench.lastState_eq, h.trail, h.valve r]
  exact hq r

theorem trailFull {q q' : Quench} (h : q.SameRings q') : q'.trailFull = q.trailFull := by
  unfold Quench.trailFull
  rw [h.trail]

theorem trailsEmpty {q q' : Quench} (h : q.SameRings q') : q'.trailsEmpty = q.trailsEmpty := by
  unfold Quench.trailsEmpty
  rw [h.trail]

theorem sound {q q' : Quench} {d : Option Dir} (h : q.SameRings q') (hq : q.Sound d) : q'.Sound d := by
  refine ⟨fun r => ?_, fun e he r => ?_, fun hd => h.ringsQuiet (hq.quiet hd)⟩
  · rw [h.trail, h.valve r]
    exact hq.alternate r
  · rw [h.trail]
    exact hq.monotone e he r

end SameRings

/-! ### Requests keep the rings sound, and end them as asked (R94, R95) -/

/-- Without a pass only OFF is asked. -/
theorem Sound.request {q : Quench} {d : Option Dir} (h : q.Sound d) (r : Ring) (on : Bool) (p : Int)
    (hon : d = none → on = false) : (q.request d r on p).Sound d := by
  have others : ∀ r', r' ≠ r → (q.request d r on p).trail.get r' = q.trail.get r' :=
    fun r' hr => q.request_other d r r' on p hr
  refine ⟨fun r' => ?_, fun e he r' => ?_, fun hd => ?_⟩
  · rw [Quench.request_circuit]
    by_cases hr : r' = r
    · subst hr
      exact q.request_alternates d r' on p (h.alternate r').1 (h.alternate r').2
    · rw [others r' hr]
      exact h.alternate r'
  · subst he
    by_cases hr : r' = r
    · subst hr
      unfold Quench.request
      split
      · exact h.monotone e rfl r'
      · rw [PerRing.get_set_self]
        exact Trail.place_monotone _ e _ (h.monotone e rfl r')
    · rw [others r' hr]
      exact h.monotone e rfl r'
  · have hl : q.lastState r = on := by rw [hon hd]; exact (h.quiet hd).last r
    unfold Quench.request
    rw [if_pos hl]
    exact h.quiet hd

theorem Sound.settings {q : Quench} {d : Option Dir} (h : q.Sound d) (hd : d ≠ none) (x y : QSetting)
    (p : Int) : ((q.setting d .q1 x p).setting d .q2 y p).Sound d := by
  rw [Quench.setting_eq, Quench.setting_eq]
  exact (h.request _ _ _ fun hn => absurd hn hd).request _ _ _ fun hn => absurd hn hd

theorem Sound.offRequests {q : Quench} {d : Option Dir} (h : q.Sound d) (p : Int) :
    (q.offRequests d p).Sound d :=
  (h.request .q1 false p fun _ => rfl).request .q2 false p fun _ => rfl

/-- A request that was not lost leaves its circuit's last state as asked (R95, R96). -/
theorem request_ends (q : Quench) (d : Option Dir) (r : Ring) (on : Bool) (p : Int)
    (ha : alternates (q.circuit.get r.circuit).valve (q.trail.get r).entries = true)
    (hm : ((q.request d r on p).trail.get r).fullMark = false) :
    (q.request d r on p).lastState r = on := by
  by_cases hn : (q.trail.get r).entries.length < 16
  · exact q.request_last d r on p hn ha
  · unfold Quench.request at hm ⊢
    split
    · assumption
    · rename_i hl
      rw [if_neg hl, PerRing.get_set_self] at hm
      rw [Quench.lastState_eq] at hl ⊢
      dsimp only
      rw [PerRing.get_set_self]
      rcases Trail.place_cases (q.trail.get r) d ⟨p, on⟩ with ⟨_, h1⟩ | ⟨h1, h2, _⟩ | ⟨h1, _⟩
      · exact absurd h1 hn
      · rw [h1, lastOf_dropLast _ _ ha h2]
        revert hl
        cases on <;> cases lastOf (q.circuit.get r.circuit).valve (q.trail.get r).entries <;> decide
      · rw [h1] at hm
        cases hm

/-- OFF requests that were not lost end both rings OFF (R45, R95). -/
theorem Sound.offRequests_ends {q : Quench} {d : Option Dir} (h : q.Sound d) (p : Int)
    (hm : (q.offRequests d p).trailFull = false) : (q.offRequests d p).endsOff := by
  have marks := (trailFull_iff _).1 hm
  have first := h.request .q1 false p fun _ => rfl
  have kept := Quench.request_other (q.request d .q1 false p) d .q2 .q1 false p (by decide)
  refine ⟨?_, request_ends _ d .q2 false p (first.alternate .q2).2 (marks .q2)⟩
  have mark1 := marks .q1
  unfold Quench.offRequests at mark1 ⊢
  rw [kept] at mark1
  have ends := q.request_ends d .q1 false p (h.alternate .q1).2 mark1
  rw [Quench.lastState_eq] at ends ⊢
  rw [kept, Quench.request_circuit]
  exact ends

/-! ### Releases keep them sound, and their ends (R99) -/

/-- Each trail has lost entries at its head, and its valve stands as the last of them asks. -/
def Dropped (q q' : Quench) : Prop := ∀ r : Ring, ∃ gone,
  (q.trail.get r).entries = gone ++ (q'.trail.get r).entries ∧
    (q'.circuit.get r.circuit).valve = lastOf (q.circuit.get r.circuit).valve gone ∧
    ((q.trail.get r).fullMark = false → (q'.trail.get r).fullMark = false)

theorem Dropped.trans {q q' q'' : Quench} (h : q.Dropped q') (h' : q'.Dropped q'') : q.Dropped q'' := by
  intro r
  obtain ⟨gone, entries, valve, mark⟩ := h r
  obtain ⟨gone', entries', valve', mark'⟩ := h' r
  refine ⟨gone ++ gone', ?_, ?_, mark' ∘ mark⟩
  · rw [entries, entries', List.append_assoc]
  · rw [valve', valve, lastOf_concat]

theorem release_dropped (q : Quench) (c : QuenchCfg) (d : Dir) (pos v : Int) (r : Ring) :
    q.Dropped (q.release c d pos v r) := by
  intro r'
  rw [Quench.release_eq]
  by_cases hr : r' = r
  · subst hr
    refine ⟨(q.trail.get r').entries.takeWhile (ringDue c d pos v r' ·.pos), ?_, ?_, ?_⟩
    · dsimp only
      rw [PerRing.get_set_self, Trail.settle_entries, List.takeWhile_append_dropWhile]
    · dsimp only
      rw [PerCircuit.get_set_self, CircuitState.passed_valve]
    · intro hm
      dsimp only
      rw [PerRing.get_set_self]
      by_contra hf
      rw [Bool.not_eq_false] at hf
      have := Trail.settle_mark _ hf
      rw [hm] at this
      cases this
  · refine ⟨[], ?_, ?_, ?_⟩
    · simp [PerRing.get_set_ne _ _ hr]
    · have hc : r'.circuit ≠ r.circuit := by revert hr; cases r <;> cases r' <;> decide
      simp [PerCircuit.get_set_ne _ _ hc, lastOf]
    · simp [PerRing.get_set_ne _ _ hr]

theorem releases_dropped (q : Quench) (c : QuenchCfg) (d : Dir) (pos v : Int) :
    q.Dropped (q.releases c d pos v) :=
  (q.release_dropped c d pos v .q1).trans (release_dropped _ c d pos v .q2)

namespace Dropped

theorem trailsEmpty {q q' : Quench} (h : q.Dropped q') (he : q.trailsEmpty = true) :
    q'.trailsEmpty = true := by
  rw [trailsEmpty_iff] at he ⊢
  intro r
  obtain ⟨gone, entries, _⟩ := h r
  rw [he r] at entries
  exact (List.append_eq_nil_iff.1 entries.symm).2

theorem endsOff {q q' : Quench} (h : q.Dropped q') (hq : q.endsOff) : q'.endsOff := by
  rw [endsOff_iff] at hq ⊢
  intro r
  obtain ⟨gone, entries, valve, _⟩ := h r
  have last := hq r
  rw [Quench.lastState_eq, entries, lastOf_concat] at last
  rwa [Quench.lastState_eq, valve]

theorem ringsQuiet {q q' : Quench} (h : q.Dropped q') (hq : q.ringsQuiet) : q'.ringsQuiet :=
  (h.endsOff hq.endsOff).ringsQuiet (h.trailsEmpty hq.1)

theorem trailFull {q q' : Quench} (h : q.Dropped q') (hq : q.trailFull = false) :
    q'.trailFull = false := by
  rw [trailFull_iff] at hq ⊢
  intro r
  obtain ⟨_, _, _, mark⟩ := h r
  exact mark (hq r)

theorem sound {q q' : Quench} {d : Option Dir} (h : q.Dropped q') (hq : q.Sound d) : q'.Sound d := by
  refine ⟨fun r => ?_, fun e he r => ?_, fun hd => h.ringsQuiet (hq.quiet hd)⟩
  · obtain ⟨gone, entries, valve, _⟩ := h r
    obtain ⟨len, alt⟩ := hq.alternate r
    rw [entries] at len alt
    rw [alternates_concat, Bool.and_eq_true] at alt
    rw [List.length_append] at len
    exact ⟨by omega, valve ▸ alt.2⟩
  · obtain ⟨gone, entries, _⟩ := h r
    have mono := hq.monotone e he r
    unfold Trail.Monotone at mono ⊢
    rw [entries] at mono
    exact (List.pairwise_append.1 mono).2.1

end Dropped

/-! ### Discards, floods and pumps (R101 to R103, R109) -/

theorem discard_quiet (q : Quench) (halt : Bool) :
    (q.discard halt).ringsQuiet ∧ (q.discard halt).trailFull = false := by
  unfold Quench.discard
  dsimp only
  split <;> exact ⟨⟨rfl, rfl, rfl⟩, rfl⟩

theorem pumpOff_rings (q : Quench) : q.SameRings q.pumpOff := ⟨rfl, rfl, rfl⟩

theorem idleStart_rings (q : Quench) (c : QuenchCfg) : q.SameRings (q.idleStart c) := by
  obtain ⟨trail, circuit⟩ := q.idleStart_trail c
  exact ⟨trail, by rw [circuit], by rw [circuit]⟩

theorem floodOrder_rings (q : Quench) (c : QuenchCfg) : q.SameRings (q.floodOrder c) := by
  rw [Quench.floodOrder_eq]
  refine ⟨rfl, ?_, ?_⟩ <;> dsimp only <;> split <;> rfl

end Quench

/-- The close of Q3 leaves the rings (R35, R102). -/
theorem State.unsprayed_sameRings (s : State) : s.quench.SameRings s.unsprayed := by
  obtain ⟨trail, q1, q2⟩ := s.unsprayed_rings
  exact ⟨trail, by rw [q1], by rw [q2]⟩

end Sys2Proof.Machine

namespace Sys2Proof.Machine

/-! ### The pass and its trails (R43 to R46, R93, R101, R140) -/

/-- Rings fit for the pass of the state, with all that this rests on: the invariants of trails and pass in one. -/
structure Passing (s : State) : Prop where
  sound : s.quench.Sound s.seq.passDir
  turn : s.seq.turnPhase = .stopping ∨ s.seq.turnPhase = .return → s.quench.trailsEmpty = true
  next : ∀ a, s.seq.next = some a →
    (a.step.isMotion = true → s.seq.passDir ≠ none) ∧ (a.turn = true → a.dir ≠ none)
  away : s.seq.state ≠ .running → s.seq.state ≠ .runout → s.seq.state ≠ .tripping →
    s.quench.ringsQuiet
  idle : s.seq.state ∈ [.unreferenced, .idle, .homing, .positioning, .tripped] → s.seq.passDir = none
  runout : s.seq.state = .runout → s.quench.endsOff
  tripping : s.seq.state = .tripping → if s.trip.response = some .runout then
      s.quench.endsOff ∧ (s.trip.trailsSeen = true → s.quench.trailsEmpty = true)
    else s.quench.ringsQuiet
  room : s.quench.trailFull = false

theorem passing_iff (s : State) : Passing s ↔ TrailInv s ∧ PassInv s := by
  constructor
  · intro h
    exact ⟨h.sound.alternate, h.sound.monotone, h.sound.quiet, h.turn, h.next, h.away, h.idle, h.runout,
      h.tripping, h.room⟩
  · rintro ⟨trails, mono, quiet, turn, next, away, idle, runout, tripping, room⟩
    exact ⟨⟨trails, mono, quiet⟩, turn, next, away, idle, runout, tripping, room⟩

/-! ### The rings behind the orders of a trip (R101, R139 to R143) -/

/-- The rings behind a response's orders in TRIPPING: discarded, or asked OFF with the drain to follow (R101, R140). -/
def RingsOrdered (d : Option Dir) (t : State) : Prop :=
  t.quench.trailFull = false ∧
    if t.trip.response = some .runout then
      t.quench.Sound d ∧ t.quench.endsOff ∧
        (t.trip.trailsSeen = true → t.quench.trailsEmpty = true)
    else t.quench.ringsQuiet

theorem RingsOrdered.of_discarded {d : Option Dir} {t : State} (q : Quench) (halt : Bool)
    (hq : (q.discard halt).SameRings t.quench) (hr : t.trip.response ≠ some .runout) :
    RingsOrdered d t := by
  obtain ⟨quiet, full⟩ := q.discard_quiet halt
  refine ⟨hq.trailFull.trans full, ?_⟩
  rw [if_neg hr]
  exact hq.ringsQuiet quiet

theorem State.tripQuench_rings (s : State) (r : Response) : s.quench.SameRings (s.tripQuench r) := by
  unfold State.tripQuench
  split
  · exact s.quench.floodOrder_rings _
  · exact s.unsprayed_sameRings

/-- The orders of a latching trip leave the rings so (R139 to R143). -/
theorem State.tripMoving_rings (s : State) (src : Source) (ch : Option Channel)
    (h : s.quench.Sound s.seq.passDir)
    (room : s.quench.trailFull = false ∨ s.chosenResponse src = .stopFlood) :
    RingsOrdered s.seq.passDir (s.tripMoving src ch) := by
  have rings := s.tripQuench_rings (s.chosenResponse src)
  unfold State.tripMoving
  cases hr : s.chosenResponse src <;> rw [hr] at rings <;> dsimp only
  case stop => exact .of_discarded _ false (.refl _) nofun
  case stopFlood => exact .of_discarded _ false (.refl _) nofun
  case halt => exact .of_discarded _ true (Quench.pumpOff_rings _) nofun
  case runout =>
    have room' := room.resolve_right (by rw [hr]; nofun)
    set b := s.tripBase src ch .runout .tripping
    have sound : b.quench.Sound s.seq.passDir := rings.sound h
    rw [State.runoutResponse_eq b rfl rfl]
    split
    · exact .of_discarded _ false (.refl _) nofun
    · rename_i kept
      have full : (b.quench.offRequests s.seq.passDir b.travel.position).trailFull = false := by
        by_contra hf
        exact kept ⟨Bool.eq_true_of_not_eq_false hf, rings.trailFull.trans room'⟩
      have driven : b.offDriven.quench = b.quench.offRequests s.seq.passDir b.travel.position ∧
          b.offDriven.trip.response = some .runout ∧
          (b.offDriven.trip.trailsSeen = true → b.offAsked.quench.trailsEmpty = true) := by
        unfold State.offDriven
        split_ifs with he
        · exact ⟨rfl, rfl, fun _ => he⟩
        · exact ⟨rfl, rfl, nofun⟩
        · exact ⟨rfl, rfl, nofun⟩
      obtain ⟨quench, response, seen⟩ := driven
      refine ⟨(congrArg _ quench).trans full, ?_⟩
      refine (if_pos response).mpr ⟨quench.symm ▸ sound.offRequests _,
        quench.symm ▸ sound.offRequests_ends _ full, fun hs => ?_⟩
      exact (congrArg _ quench).trans (seen hs)

/-- A trip at rest leaves quiet rings quiet (R145). -/
theorem State.tripResting_rings (s : State) (src : Source) (ch : Option Channel)
    (h : s.quench.ringsQuiet)
    (room : s.quench.trailFull = false ∨ s.chosenResponse src = .stopFlood) :
    (s.tripResting src ch).quench.ringsQuiet ∧ (s.tripResting src ch).quench.trailFull = false := by
  have rings := s.tripQuench_rings (s.chosenResponse src)
  unfold State.tripResting
  cases hr : s.chosenResponse src <;> rw [hr] at rings <;> dsimp only
  case runout =>
    exact ⟨rings.ringsQuiet h, rings.trailFull.trans (room.resolve_right (by rw [hr]; nofun))⟩
  case stop => exact Quench.discard_quiet _ _
  case stopFlood => exact Quench.discard_quiet _ _
  case halt =>
    obtain ⟨quiet, full⟩ := Quench.discard_quiet (s.tripQuench .halt) true
    have off := Quench.pumpOff_rings ((s.tripQuench .halt).discard true)
    exact ⟨off.ringsQuiet quiet, off.trailFull.trans full⟩

namespace Passing

/-- Quiet rings with no step in Next. -/
theorem of_quiet {t : State} (hq : t.quench.ringsQuiet) (room : t.quench.trailFull = false)
    (hn : t.seq.next = none)
    (hd : t.seq.state ∈ [.unreferenced, .idle, .homing, .positioning, .tripped] → t.seq.passDir = none) :
    Passing t := by
  refine ⟨hq.sound _, fun _ => hq.1, fun a ha => ?_, fun _ _ _ => hq, hd, fun _ => hq.endsOff,
    fun _ => ?_, room⟩
  · rw [hn] at ha
    cases ha
  · split
    · exact ⟨hq.endsOff, fun _ => hq.1⟩
    · exact hq

/-- The Sequencer's fields that it reads, the rings, the response and its trails report. -/
theorem of_same {s t : State} (h : Passing s) (hq : s.quench.SameRings t.quench)
    (hstate : t.seq.state = s.seq.state) (hphase : t.seq.turnPhase = s.seq.turnPhase)
    (hnext : t.seq.next = s.seq.next) (hdir : t.seq.passDir = s.seq.passDir)
    (hresponse : t.trip.response = s.trip.response) (hseen : t.trip.trailsSeen = s.trip.trailsSeen) :
    Passing t := by
  refine ⟨?_, ?_, ?_, ?_, ?_, ?_, ?_, hq.trailFull.trans h.room⟩
  · rw [hdir]
    exact hq.sound h.sound
  · rw [hphase, hq.trailsEmpty]
    exact h.turn
  · rw [hnext, hdir]
    exact h.next
  · rw [hstate]
    exact fun h1 h2 h3 => hq.ringsQuiet (h.away h1 h2 h3)
  · rw [hstate, hdir]
    exact h.idle
  · rw [hstate]
    exact fun hr => hq.endsOff (h.runout hr)
  · rw [hstate, hresponse, hseen, hq.trailsEmpty]
    intro ht
    have held := h.tripping ht
    split at held
    · rw [if_pos ‹_›]
      exact ⟨hq.endsOff held.1, held.2⟩
    · rw [if_neg ‹_›]
      exact hq.ringsQuiet held

theorem calm {s t : State} (h : Passing s) (c : Calm s t) : Passing t :=
  h.of_same ⟨c.trail, c.valve1, c.valve2⟩ c.state c.phase c.next c.dir c.response c.seen

/-- A RUNNING state with nothing in Next that may open the pass. -/
theorem of_running {t : State} (hs : t.seq.state = .running) (sound : t.quench.Sound t.seq.passDir)
    (turn : t.seq.turnPhase = .none) (hn : t.seq.next = none) (room : t.quench.trailFull = false) :
    Passing t := by
  refine ⟨sound, ?_, ?_, fun h => absurd hs h, ?_, ?_, ?_, room⟩
  · rw [turn]; simp
  · rw [hn]; nofun
  · rw [hs]; simp
  · rw [hs]; nofun
  · rw [hs]; nofun

/-- TRIPPING is left for TRIPPED over quiet rings: drained, or discarded (R144). -/
theorem enterTripped {s : State} (h : Passing s) (hs : s.seq.state = .tripping)
    (hd : s.trip.done = true) (hn : s.seq.next = none) : Passing s.enterTripped := by
  have quiet : s.quench.ringsQuiet := by
    have held := h.tripping hs
    split at held
    · rename_i hr
      unfold TripUnit.done at hd
      rw [hr] at hd
      exact held.1.ringsQuiet (held.2 (Bool.and_eq_true_iff.1 hd).1)
    · exact held
  have rings : s.quench.SameRings s.enterTripped.quench := by
    rw [State.enterTripped_quench]
    split
    · exact s.quench.idleStart_rings _
    · exact .refl _
  exact of_quiet (rings.ringsQuiet quiet) (rings.trailFull.trans h.room) (by simp [hn]) (by simp)

theorem tripProgress {s : State} (h : Passing s) (hn : s.seq.next = none) : Passing s.tripProgress := by
  rcases s.tripProgress_cases with e | ⟨hs, hd, e⟩ <;> rw [e]
  · exact h
  · exact h.enterTripped hs hd hn

/-- TRIPPING with its rings ordered. -/
theorem of_ordered {t : State} (hs : t.seq.state = .tripping) (hn : t.seq.next = none)
    (turn : t.seq.turnPhase = .none) (h : RingsOrdered t.seq.passDir t) : Passing t := by
  obtain ⟨room, rings⟩ := h
  split at rings
  · rename_i hr
    obtain ⟨sound, ends, seen⟩ := rings
    refine ⟨sound, ?_, ?_, fun _ _ h3 => absurd hs h3, ?_, fun _ => ends, fun _ => ?_, room⟩
    · rw [turn]; simp
    · rw [hn]; nofun
    · rw [hs]; simp
    · rw [if_pos hr]
      exact ⟨ends, seen⟩
  · exact of_quiet rings room hn (by rw [hs]; simp)

/-- A latching trip, from rings sound in the pass and quiet at rest; a lost append trips with a discard (R96, R137). -/
theorem latchingTrip {s : State} (sound : s.quench.Sound s.seq.passDir)
    (quiet : s.seq.state.isRest = true → s.quench.ringsQuiet) (src : Source) (ch : Option Channel)
    (room : s.quench.trailFull = false ∨ s.chosenResponse src = .stopFlood) :
    Passing (s.latchingTrip src ch) := by
  cases hrest : s.seq.state.isRest
  · obtain ⟨ordered, _⟩ := s.tripMoving_ordered src ch
    have rings := s.tripMoving_rings src ch sound room
    rw [s.latchingTrip_moving src ch hrest]
    refine tripProgress (of_ordered ?_ ?_ ?_ ?_) ?_ <;> rw [ordered.seq]
    · rfl
    · rfl
    · rfl
    · exact rings
    · rfl
  · obtain ⟨ordered, _⟩ := s.tripResting_ordered src ch
    obtain ⟨quiet', full⟩ := s.tripResting_rings src ch (quiet hrest) room
    have rings : (s.tripResting src ch).quench.SameRings (s.tripResting src ch).enterTripped.quench := by
      rw [State.enterTripped_quench]
      split
      · exact Quench.idleStart_rings _ _
      · exact .refl _
    rw [s.latchingTrip_resting src ch hrest]
    refine of_quiet (rings.ringsQuiet quiet') (rings.trailFull.trans full) ?_ (by simp)
    rw [State.enterTripped_seq, ordered.seq]
    rfl

/-- A further trip, in the states of the latch: the record, or a discard (R101, R146, R147). -/
theorem furtherTrip {s : State} (h : Passing s) (hn : s.seq.next = none) (hp : s.seq.turnPhase = .none)
    (src : Source) : Passing (s.furtherTrip src) := by
  have told : Passing (s.onTrip fun t => { t with record := t.record.map (·.further src) }) :=
    h.of_same (.refl _) rfl rfl rfl rfl rfl rfl
  rcases s.furtherTrip_cases src with e | ⟨hs, e | e⟩ | ⟨hs, e⟩ <;> rw [e]
  · exact told
  · exact tripProgress (of_ordered hs hn hp (.of_discarded _ true (Quench.pumpOff_rings _) nofun)) hn
  · exact tripProgress (of_ordered hs hn hp (.of_discarded _ false (.refl _) nofun)) hn
  · obtain ⟨quiet, full⟩ := s.quench.discard_quiet true
    have off := Quench.pumpOff_rings (s.quench.discard true)
    exact of_quiet (off.ringsQuiet quiet) (off.trailFull.trans full) hn
      fun _ => h.idle (by rw [hs]; simp)

/-- A change of sound rings to sound rings with the latch clear: that change, or the trip of a lost append (R96). -/
theorem onTrails {s : State} (f : Quench → Quench) (hl : s.trip.latch = false)
    (room : s.quench.trailFull = false) (hrest : s.seq.state.isRest = false)
    (sound : (f s.quench).Sound s.seq.passDir)
    (held : (f s.quench).trailFull = false → Passing (s.onQuench f)) : Passing (s.onTrails f) := by
  rcases s.onTrails_cases f with ⟨e, hf⟩ | ⟨hl', _⟩ | ⟨_, e⟩
  · rw [e]
    refine held ?_
    by_contra hne
    rw [hf (Bool.eq_true_of_not_eq_false hne)] at room
    cases room
  · rw [hl] at hl'
    cases hl'
  · rw [e]
    refine latchingTrip sound (fun hr => ?_) _ _ (.inr rfl)
    rw [show (s.onQuench f).seq.state.isRest = false from hrest] at hr
    cases hr

/-- A step of the program comes into Active with rings sound in its pass (R33, R43, R94). -/
theorem activates {s u : State} (h : Passing s) (hl : s.trip.latch = false) (a : Admitted)
    (hs : s.seq.state = .running) (hn : s.seq.next = some a)
    (ht : a.turn = true → s.quench.trailsEmpty = true ∨ s.seq.turnPhase = .return)
    (c : Calm (s.onSeq (·.activated a)) u) : Passing (u.handQuench a) := by
  obtain ⟨hmotion, hturn⟩ := h.next a hn
  have dir : (s.seq.activated a).passDir = if a.turn then a.dir else s.seq.passDir := by
    rw [Seq.activated_eq]
  have sound : s.quench.Sound (s.seq.activated a).passDir := by
    rw [dir]
    split
    · rename_i hat
      exact h.sound.turned ((ht hat).elim id fun hr => h.turn (.inr hr)) (hturn hat)
    · exact h.sound
  have opened : a.step.isMotion = true → (s.seq.activated a).passDir ≠ none := by
    intro hm
    rw [dir]
    split
    · exact hturn ‹_›
    · exact hmotion hm
  have begun : Passing (s.onSeq (·.activated a)) := by
    refine of_running ?_ sound ?_ ?_ h.room <;> simp [Seq.activated_eq, hs]
  have held := begun.calm c
  rcases u.handQuench_cases a with ⟨hm, x, y, e⟩ | e
  · have hd : u.seq.passDir ≠ none := by
      rw [c.dir]
      exact opened hm
    have state : u.seq.state = .running := c.state.trans (by simp [Seq.activated_eq, hs])
    have set := held.sound.settings hd x y a.start
    rw [e]
    refine onTrails _ (c.latch.trans hl) held.room (by rw [state]; rfl) set fun full => ?_
    refine of_running state set ?_ ?_ full
    · exact c.phase.trans (by simp [Seq.activated_eq])
    · exact c.next.trans (by simp [Seq.activated_eq])
  · exact held.calm e

/-- The entry to RUNOUT, its rings asked OFF (R45, R95). -/
theorem ends {s : State} (h : Passing s) (hl : s.trip.latch = false) (c : EndCause) (pos : Int) :
    Passing ((s.runoutStart c).onTrails (·.offRequests s.seq.passDir pos)) := by
  have sound : (s.runoutStart c).quench.Sound s.seq.passDir := s.unsprayed_sameRings.sound h.sound
  have room : (s.runoutStart c).quench.trailFull = false :=
    s.unsprayed_sameRings.trailFull.trans h.room
  refine onTrails _ hl room rfl (sound.offRequests pos) fun full => ?_
  refine ⟨sound.offRequests pos, nofun, nofun, fun _ h2 => absurd rfl h2, fun hm => ?_,
    fun _ => sound.offRequests_ends pos full, nofun, full⟩
  exact absurd (show SeqState.runout ∈ _ from hm) (by decide)

theorem releases {s : State} (h : Passing s) (c : QuenchCfg) (d : Dir) (pos v : Int) :
    Passing (s.onQuench (·.releases c d pos v)) := by
  have dropped := s.quench.releases_dropped c d pos v
  refine ⟨dropped.sound h.sound, fun hp => dropped.trailsEmpty (h.turn hp), h.next,
    fun h1 h2 h3 => dropped.ringsQuiet (h.away h1 h2 h3), h.idle, fun hr => dropped.endsOff (h.runout hr),
    fun ht => ?_, dropped.trailFull h.room⟩
  have held := h.tripping ht
  split at held
  · rename_i hr
    exact (if_pos hr).mpr ⟨dropped.endsOff held.1, fun hs => dropped.trailsEmpty (held.2 hs)⟩
  · rename_i hr
    exact (if_neg hr).mpr (dropped.ringsQuiet held)

/-- Every act keeps the pass and its trails, the queue within its bounds and the latch standing with its states. -/
theorem act (s t : State) (a : Act s t) (hq : QueueInv s) (hl : LatchInv s) (h : Passing s) :
    Passing t := by
  obtain ⟨_, hempty, hactive, hphase, _, _⟩ := hq
  have clear : s.seq.state ≠ .tripping ∧ s.seq.state ≠ .tripped → s.trip.latch = false := fun hs => by
    obtain ⟨hlatch, _⟩ := hl
    rw [← Bool.not_eq_true, hlatch]
    exact fun h => h.elim hs.1 hs.2
  cases a with
  | calm c => exact h.calm c
  | latches src ch hlatch =>
    refine latchingTrip h.sound (fun hr => ?_) src ch (.inl h.room)
    rcases (SeqState.isRest_iff _).1 hr with e | e <;> exact h.away (by simp [e]) (by simp [e]) (by simp [e])
  | furthers src hlatch =>
    have hs := hl.1.1 hlatch
    have out : s.seq.state ≠ .prestart ∧ s.seq.state ≠ .running := by
      rcases hs with e | e <;> simp [e]
    refine h.furtherTrip (hempty out.1 out.2).2.1 ?_ src
    by_contra hp
    exact out.2 (hphase hp)
  | trips hs hd => exact h.enterTripped hs hd (hempty (by simp [hs]) (by simp [hs])).2.1
  | clears st hs hst =>
    exact of_quiet (h.away (by simp [hs]) (by simp [hs]) (by simp [hs])) h.room
      (hempty (by simp [hs]) (by simp [hs])).2.1 fun _ => h.idle (by simp [hs])
  | rests st hs hst =>
    have away := SeqState.resting_away hs
    have out : s.seq.state ≠ .prestart := by
      intro e
      rw [e] at hs
      cases hs
    refine of_quiet (h.away away.2.1.1 away.2.1.2 away.2.2.1) h.room
      (hempty out away.2.1.1).2.1 fun _ => h.idle ?_
    revert hs
    cases s.seq.state <;> decide
  | restarts => exact of_quiet ⟨rfl, rfl, rfl⟩ rfl rfl fun _ => rfl
  | resets i p => exact of_quiet ⟨rfl, rfl, rfl⟩ rfl rfl fun _ => rfl
  | starts p hs hroom =>
    have quiet := h.away (by simp [hs]) (by simp [hs]) (by simp [hs])
    rw [State.acceptStart_eq]
    exact of_quiet (t := StartedScan _ _ _ _ _ _) quiet h.room rfl fun _ => rfl
  | exits c hs =>
    have quiet := h.away (by simp [hs]) (by simp [hs]) (by simp [hs])
    have none' : s.seq.active = none := by
      by_contra hne
      have := (hactive (Option.isSome_iff_ne_none.2 hne)).1
      rw [hs] at this
      cases this
    obtain ⟨_, _, _, quench, _⟩ := s.exitPrestart_spec c none'
    have rings : s.quench.SameRings (s.exitPrestart c).quench := by
      rw [quench, ← Quench.idleStart_eq]
      exact s.quench.idleStart_rings _
    refine of_quiet (rings.ringsQuiet quiet) (rings.trailFull.trans h.room) ?_ ?_ <;>
      simp [State.exitPrestart_seq]
  | runs hs =>
    have phase : s.seq.turnPhase = .none := by
      by_contra hp
      rw [hs] at hphase
      exact absurd (hphase hp) nofun
    refine ⟨h.sound, ?_, h.next, fun h1 => absurd rfl h1, ?_, nofun, nofun, h.room⟩
    · exact h.turn
    · intro hm
      exact absurd (show SeqState.running ∈ _ from hm) (by decide)
  | edits q e c =>
    exact (of_same (t := { s with seq := q }) h (.refl _) e.state e.phase e.next e.dir rfl rfl).calm c
  | admits a rest nominal hs hn hr hmotion hturn =>
    have dir : ∀ d : Option Dir, s.seq.passDir = d → s.quench.Sound (if d.isNone then a.dir else d) := by
      intro d hd
      split
      · rw [Option.isNone_iff_eq_none] at *
        subst d
        exact (h.sound.quiet (by assumption)).sound _
      · rw [← hd]
        exact h.sound
    refine ⟨dir _ rfl, h.turn, fun b hb => ?_, h.away, fun hm => ?_, h.runout, h.tripping, h.room⟩
    · cases hb
      refine ⟨fun hm => ?_, hturn⟩
      show (if s.seq.passDir.isNone then a.dir else s.seq.passDir) ≠ none
      split
      · exact hmotion hm
      · rename_i hd
        exact fun e => hd (by rw [e]; rfl)
    · have hm' : s.seq.state ∈ _ := hm
      rcases hs with e | e <;> rw [e] at hm' <;> exact absurd hm' (by decide)
  | activates a hs hn ht c => exact h.activates (clear (by simp [hs])) a hs hn ht c
  | idles a ha =>
    obtain ⟨seq, trip, _⟩ := s.clearActive_kept a
    have rings : s.quench.SameRings (s.clearActive a).quench := by
      unfold State.clearActive
      dsimp only
      split
      · have closed : s.quench.SameRings s.quench.sprayClose := by
          unfold Quench.sprayClose
          split <;> exact ⟨rfl, rfl, rfl⟩
        exact closed
      · exact .refl _
    refine h.of_same rings ?_ ?_ ?_ ?_ ?_ ?_ <;> simp [seq, trip]
  | drains hs ha =>
    exact ⟨h.sound, nofun, h.next, h.away, h.idle, h.runout, h.tripping, h.room⟩
  | stops hp he => exact ⟨h.sound, fun _ => he, h.next, h.away, h.idle, h.runout, h.tripping, h.room⟩
  | returns hp =>
    exact ⟨h.sound, fun _ => h.turn (.inl hp), h.next, h.away, h.idle, h.runout, h.tripping, h.room⟩
  | ends c pos hs => exact h.ends (clear (by simp [hs])) c pos
  | completes hs he =>
    have rings : s.quench.SameRings s.runoutComplete.quench := by
      rw [State.runoutComplete_quench]
      exact s.quench.idleStart_rings _
    refine of_quiet (rings.ringsQuiet ((h.runout hs).ringsQuiet he)) (rings.trailFull.trans h.room) ?_ ?_
    · simpa using (hempty (by simp [hs]) (by simp [hs])).2.1
    · simp
  | releases c d pos v hd => exact h.releases c d pos v
  | sees seen hseen =>
    refine ⟨h.sound, h.turn, h.next, h.away, h.idle, h.runout, fun ht => ?_, h.room⟩
    have held := h.tripping ht
    split at held
    · rename_i hr
      exact (if_pos hr).mpr ⟨held.1, hseen⟩
    · rename_i hr
      exact (if_neg hr).mpr held
  | drops n => exact h.of_same (.refl _) rfl rfl rfl rfl rfl rfl

end Passing

/-- Settles O6: every act of a step keeps the queue's bounds, the latch with its states, and the pass with its trails. -/
theorem trailsMonotoneInPass : Obligations.TrailsMonotoneInPass := by
  intro s t hq hl ht hp e
  have kept := (step_acts s t hq e).keeps (P := fun u => QueueInv u ∧ LatchInv u ∧ Passing u)
    (fun u v a ⟨q, l, p⟩ => ⟨QueueInv.act u v a q, LatchInv.act u v a l, Passing.act u v a q l p⟩)
    ⟨hq, hl, (passing_iff s).2 ⟨ht, hp⟩⟩
  exact ((passing_iff t).1 kept.2.2).2

end Sys2Proof.Machine

namespace Sys2Proof.Machine

/-! ### INHIBIT, HOME, MOVE-TO (R21, R22, R42, R70) -/

/-- Settles O33: on with inhibit off gives the zero order, on with inhibit on and off change at most the mark. -/
theorem inhibitOrders : Obligations.InhibitOrders := by
  intro tag s taken l
  have served : exec (.inhibitOn tag) s = .next { s with
      power := if s.power.inhibit = true then s.power else { s.power with
        inhibit := true, pOut := 0, code := 0, ceiling := .none, underFloor := false }
      link := l } := by
    rw [exec_inhibitOn_taken taken]
    rfl
  refine ⟨fun h => ?_, fun h => ?_, ?_⟩
  · rw [served, if_neg (by rw [h]; decide)]
  · rw [served, if_pos h]
  · rw [exec_inhibitOff_taken taken]
    rfl

/-- Settles O25: the checks of the two requests in their order, then the motion begun. -/
theorem homeAndMoveToBegin : Obligations.HomeAndMoveToBegin := by
  refine ⟨fun tag s taken => ⟨fun h => ?_, fun h h' => ?_⟩, fun tag s p v taken => ?_⟩
  · have rest : s.seq.state.isRest = true := (SeqState.isRest_iff _).2 h.symm
    rw [exec_home_taken taken]
    unfold State.serveHome State.homeAnswer
    simp only [rest, if_true]
    rfl
  · have rest : ¬s.seq.state.isRest = true := fun hr =>
      ((SeqState.isRest_iff _).1 hr).elim h' h
    rw [exec_home_taken taken]
    unfold State.serveHome State.homeAnswer
    simp only [rest]
    rfl
  · intro good
    have legal : s.seq.state = .idle → s.moveToAnswer p v = if good then .ok else .invalid := fun h => by
      unfold State.moveToAnswer
      rw [if_neg (by rw [h]; decide), if_neg (fun hn => hn h)]
      by_cases hg : good
      · obtain ⟨h1, h2, h3⟩ := id hg
        rw [if_pos hg, if_neg]
        simp [inRange]
        omega
      · rw [if_neg hg, if_pos]
        simp only [inRange, good] at hg ⊢
        simp
        omega
    have answered : ∀ c, s.moveToAnswer p v = c → c ≠ .ok →
        exec (.moveTo tag p v) s = .next (s.replied 0x85#8 tag c []) := fun c hc hn => by
      rw [exec_moveTo_taken p v taken]
      unfold State.serveMoveTo
      simp only [hc, if_neg hn]
      rfl
    refine ⟨fun h => ?_, fun h h' => ?_, fun h hg => ?_, fun h hg => ?_⟩
    · exact answered _ (if_pos h) nofun
    · exact answered _ ((if_neg h).trans (if_pos h')) nofun
    · exact answered _ ((legal h).trans (if_neg hg)) nofun
    · rw [exec_moveTo_taken p v taken]
      unfold State.serveMoveTo
      simp only [legal h, if_pos hg]
      rfl

/-! ### PRESTART and its ends (R24, R26, R27) -/

/-- Settles O26: both exits are the exit from PRESTART, nothing being Active there. -/
theorem prestartExits : Obligations.PrestartExits := by
  intro s hq
  refine ⟨fun hs hopen => ?_, fun h => ?_⟩
  · have none' : s.seq.active = none := by
      obtain ⟨_, _, hactive, _⟩ := hq
      by_contra hne
      have := (hactive (Option.isSome_iff_ne_none.2 hne)).1
      rw [hs] at this
      cases this
    refine ⟨fun ht => ⟨_, rfl, ?_⟩, fun tag taken => ⟨_, exec_stop_taken taken, ?_⟩⟩
    · unfold State.prestartTimeout
      rw [if_pos ⟨hs, ht⟩]
      exact s.exitPrestart_spec _ none'
    · have stops : s.serveStop tag =
          (s.replied 0x86#8 tag .ok []).exitPrestart .stopped := by
        unfold State.serveStop State.stopEffect State.stopAnswer
        simp only [State.answer_seq, hs]
        rfl
      rw [stops]
      obtain ⟨seq, power, travel, quench, store, record, _⟩ :=
        (s.replied 0x86#8 tag .ok []).exitPrestart_spec .stopped none'
      exact ⟨seq, power, travel, quench, store, record, by simp [Keeps, State.replied]⟩
  · have none' : s.prestartTimeout = s := by
      unfold State.prestartTimeout
      rw [if_neg]
      rintro ⟨h1, h2⟩
      rcases h with h | h
      · exact h h1
      · rw [h] at h2
        cases h2
    exact congrArg Host.Outcome.next none'

/-- An OK to START carries the record number (R23, R153). -/
theorem State.startReply_ok (s : State) (third : Option ResultCode) (h : s.startAnswer third = .ok) :
    s.startReply third = (.ok, be2 s.zones.numberToTake) := by
  unfold State.startReply
  simp only [h, if_true]

/-- Settles O28: in IDLE with room for a record both STARTs pass their checks and are accepted. -/
theorem startsTakeEffect : Obligations.StartsTakeEffect := by
  intro tag s part taken hs hroom
  have ok : s.startAnswer none = .ok := by
    rw [s.startAnswer_idle none hs]
    exact if_neg (Nat.not_le.2 hroom)
  refine ⟨fun page hp hw ho => ?_, fun ws windows h1 h16 hws => ?_⟩
  · have check : s.profileCheck page = none := by rw [s.profileCheck_eq, if_pos ⟨hp, hw, ho⟩]
    rw [exec_startProfile_taken page part taken]
    unfold State.serveStartProfile
    simp only [check, s.startReply_ok none ok, if_true]
    rw [State.acceptStart_eq]
    rfl
  · have read : windowsOf ws = some windows := by
      unfold windowsOf
      rw [if_pos ⟨h1, h16⟩, hws]
    have check : streamCheck ws = none := by
      unfold streamCheck
      rw [read]
      rfl
    rw [exec_startStream_taken part ws taken]
    unfold State.serveStartStream
    simp only [check, s.startReply_ok none ok, if_true, read, Option.getD_some]
    rw [State.acceptStart_eq]
    rfl

/-! ### The state after RESET (R47, R67, R91, R113, R129, R152, R169, R183, R196) -/

theorem reset_link : LinkInv State.reset :=
  ⟨Nat.zero_le _, fun _ => Nat.zero_le _, Nat.zero_le _, Nat.zero_le _, fun _ => ⟨rfl, rfl⟩⟩

theorem reset_passing : Passing State.reset := .of_quiet ⟨rfl, rfl, rfl⟩ rfl rfl fun _ => rfl

theorem reset_power : PowerInv State.reset :=
  ⟨by decide, by decide, by decide, by decide, fun _ => rfl, nofun⟩

theorem reset_latch : LatchInv State.reset := ⟨by decide, rfl, rfl⟩

theorem reset_reference : ReferenceInv State.reset := by
  unfold ReferenceInv
  decide

theorem reset_store : StoreInv State.reset.store := by
  refine ⟨?_, ?_, ?_, ?_, ?_, ?_, ?_, ?_, ?_⟩ <;> decide +kernel

/-- Settles O3. -/
theorem resetMeetsInvariants : Obligations.ResetMeetsInvariants := by
  obtain ⟨trails, pass⟩ := (passing_iff _).1 reset_passing
  exact ⟨reset_link, trails, reset_power, .of_flushed rfl rfl rfl rfl rfl rfl rfl rfl, reset_latch,
    .of_closed rfl nofun rfl rfl (Nat.zero_le _), reset_reference, pass, reset_store,
    ⟨List.nodup_nil, fun _ => rfl, nofun⟩, List.nodup_nil⟩

end Sys2Proof.Machine

namespace Sys2Proof.Machine

/-! ### CONFIGURE of the plain groups (R26, R39, R66, R90, R111, R128, R193) -/

/-- In IDLE and UNREFERENCED a group of the right length is replaced when it is read, and INVALID otherwise (R193). -/
theorem State.serveConfig_read {α : Type} (s : State) (tag : Byte) (items : List Int) (read : Option α)
    (write : α → State → State) (hs : s.seq.state.isRest = true) :
    s.serveConfig tag items.length items read write =
      match read with
      | some c => write c (s.replied 0x82#8 tag .ok [])
      | none => s.replied 0x82#8 tag .invalid [] := by
  unfold State.serveConfig State.configAnswer
  cases read <;> simp [hs] <;> rfl

/-- A group whose reader asks for `good`. -/
theorem State.serveConfig_group {α : Type} (s : State) (tag : Byte) (items : List Int) (read : Option α)
    (write : α → State → State) (hs : s.seq.state.isRest = true) {good : Prop} [Decidable good]
    {value : α} (h : read = if good then some value else none) :
    (good → s.serveConfig tag items.length items read write =
      write value (s.replied 0x82#8 tag .ok [])) ∧
    (¬good → s.serveConfig tag items.length items read write =
      s.replied 0x82#8 tag .invalid []) := by
  rw [s.serveConfig_read tag items read write hs, h]
  exact ⟨fun hg => by rw [if_pos hg], fun hg => by rw [if_neg hg]⟩

/-- The fault mode of a code in range (R198). -/
theorem faultModeOf_eq (x : Int) :
    faultModeOf x = if 1 ≤ x ∧ x ≤ 3 then
      some (if x = 1 then .hold else if x = 2 then .substitute else .fault) else none := by
  unfold faultModeOf
  split_ifs <;> first | rfl | omega

theorem calModeOf_eq (x : Int) :
    calModeOf x = if 1 ≤ x ∧ x ≤ 2 then some (if x = 1 then .rotate else .all) else none := by
  unfold calModeOf
  split_ifs <;> first | rfl | omega

/-- The items of a channel are legal (R128). -/
def ChannelLegal (xs : List Int) (c : Channel) : Prop :=
  let x : Nat → Int := fun i => xs.getD i 0
  1 ≤ x c.num ∧ x c.num ≤ 1000 ∧ x (9 + c.num) ∈ [(1 : Int), 2, 4, 8, 16] ∧ 1 ≤ x (18 + c.num) ∧
    x (18 + c.num) ≤ 100000 ∧ 1 ≤ x (27 + c.num) ∧ x (27 + c.num) ≤ 3 ∧
    (c = .coilI ∨ c = .invP → x (27 + c.num) ≠ 2) ∧ -32768 ≤ x (36 + c.num) ∧ x (36 + c.num) ≤ 32767

/-- The configuration that the items of a channel hold (R128, R198). -/
def channelRead (xs : List Int) (c : Channel) : ChannelCfg :=
  let x : Nat → Int := fun i => xs.getD i 0
  { period := (x c.num).toNat, burst := (x (9 + c.num)).toNat, scale := (x (18 + c.num)).toNat,
    mode := if x (27 + c.num) = 1 then .hold else if x (27 + c.num) = 2 then .substitute else .fault,
    substitute := x (36 + c.num) }

theorem channelItems_eq_some (xs : List Int) (c : Channel) (h : ChannelLegal xs c) :
    channelItems xs c = some (channelRead xs c) := by
  obtain ⟨p1, p2, burst, s1, s2, m1, m2, sub, v1, v2⟩ := h
  unfold channelItems channelCfgOf
  rw [faultModeOf_eq, if_pos ⟨m1, m2⟩]
  refine if_pos ?_
  have allowed : ((if xs.getD (27 + c.num) 0 = 1 then FaultMode.hold
      else if xs.getD (27 + c.num) 0 = 2 then .substitute else .fault) = .substitute) →
      ¬(c = .coilI ∨ c = .invP) := by
    intro hm hc
    rw [if_neg (sub hc)] at hm
    split at hm <;> cases hm
  simp only [Bool.and_eq_true, inRange_iff, List.contains_iff_mem, Bool.not_eq_true',
    Bool.and_eq_false_imp, beq_iff_eq, Bool.or_eq_false_iff, beq_eq_false_iff_ne]
  exact ⟨⟨⟨⟨⟨p1, p2⟩, burst⟩, s1, s2⟩, v1, v2⟩, fun hm => not_or.1 (allowed hm)⟩

theorem channelLegal_of_read (xs : List Int) (c : Channel) (cfg : ChannelCfg)
    (h : channelItems xs c = some cfg) : ChannelLegal xs c := by
  unfold channelItems channelCfgOf at h
  rw [faultModeOf_eq] at h
  by_cases hm : 1 ≤ xs.getD (27 + c.num) 0 ∧ xs.getD (27 + c.num) 0 ≤ 3
  · rw [if_pos hm] at h
    obtain ⟨hok, _⟩ := Option.ite_none_right_eq_some.1 h
    simp only [Bool.and_eq_true, inRange_iff, List.contains_iff_mem, Bool.not_eq_true',
      Bool.and_eq_false_imp, beq_iff_eq, Bool.or_eq_false_iff, beq_eq_false_iff_ne] at hok
    obtain ⟨⟨⟨⟨⟨p1, p2⟩, burst⟩, s1, s2⟩, v1, v2⟩, sub⟩ := hok
    refine ⟨p1, p2, burst, s1, s2, hm.1, hm.2, fun hc h2 => ?_, v1, v2⟩
    have code : xs.getD (27 + c.num) 0 = 2 := h2
    obtain ⟨n1, n2⟩ := sub (by rw [code]; rfl)
    exact hc.elim n1 n2
  · rw [if_neg hm] at h
    cases h

/-- The items behind the channels' are legal (R128). -/
def MeasureLegal (xs : List Int) : Prop :=
  let x : Nat → Int := fun i => xs.getD i 0
  (∀ c, ChannelLegal xs c) ∧
    1 ≤ x 45 ∧ x 45 ≤ 254 ∧ 1 ≤ x 46 ∧ x 46 ≤ 15 ∧ 100 ≤ x 47 ∧ x 47 ≤ 5000 ∧ 1 ≤ x 48 ∧ x 48 ≤ 2

/-- The MEASURE group that the items hold (R128, R198). -/
def measureRead (xs : List Int) : MeasureCfg :=
  let x : Nat → Int := fun i => xs.getD i 0
  { chan := .ofFn (channelRead xs), stale := (x 45).toNat, relax := (x 46).toNat,
    calPeriod := (x 47).toNat, calMode := if x 48 = 1 then .rotate else .all }

theorem measureOf_eq_some (xs : List Int) (hl : xs.length = 49) (h : MeasureLegal xs) :
    measureOf xs = some (measureRead xs) := by
  obtain ⟨chan, s1, s2, r1, r2, p1, p2, m1, m2⟩ := h
  unfold measureOf
  rw [if_pos hl]
  simp only [fun c => channelItems_eq_some xs c (chan c)]
  rw [calModeOf_eq, if_pos ⟨m1, m2⟩]
  refine if_pos ?_
  simp only [Bool.and_eq_true, inRange_iff]
  exact ⟨⟨⟨s1, s2⟩, r1, r2⟩, p1, p2⟩

theorem measureLegal_of_read (xs : List Int) (m : MeasureCfg) (h : measureOf xs = some m) :
    MeasureLegal xs := by
  unfold measureOf at h
  split at h
  · split at h
    · rename_i c0 c1 c2 c3 c4 c5 c6 c7 c8 cal
      split at h
      · rename_i hok
        simp only [Bool.and_eq_true, inRange_iff] at hok
        obtain ⟨⟨⟨s1, s2⟩, r1, r2⟩, p1, p2⟩ := hok
        have modes : 1 ≤ xs.getD 48 0 ∧ xs.getD 48 0 ≤ 2 := by
          by_contra hm
          rw [calModeOf_eq, if_neg hm] at cal
          cases cal
        refine ⟨fun c => ?_, s1, s2, r1, r2, p1, p2, modes⟩
        cases c <;> exact channelLegal_of_read xs _ _ (by assumption)
      · cases h
    · cases h
  · cases h

theorem measureOf_eq_none (xs : List Int) (h : ¬MeasureLegal xs) : measureOf xs = none := by
  cases hm : measureOf xs with
  | none => rfl
  | some m => exact absurd (measureLegal_of_read xs m hm) h

/-- Settles O23: each group's reader asks for the ranges and the rule, item by item. -/
theorem configurePlainGroups : Obligations.ConfigurePlainGroups := by
  refine ⟨?_, ⟨?_, ?_⟩, ?_⟩
  · intro tag s a kp fe lo hi hs hk ref rs ds pr fl rl taken rest good c
    have read : machineOf [a, kp, fe, lo, hi, hs, hk, ref, rs, ds, pr, fl, rl] =
        if good then some _ else none :=
      if_congr (by simp only [Bool.and_eq_true, inRange_iff, endInRange_iff, decide_eq_true_eq, and_assoc,
        good]) rfl rfl
    rw [show exec c s = _ from exec_configureMachine_taken _ taken]
    obtain ⟨accepts, refuses⟩ := s.serveConfig_group tag _ _
      (fun c t => t.onCfg ({ · with machine := c })) rest read
    exact ⟨fun hg => congrArg Host.Outcome.next (accepts hg),
      fun hg => congrArg Host.Outcome.next (refuses hg)⟩
  · intro tag s o1 o2 l1 l2 f1 f2 f3 pv dr fl on off idle taken rest good c
    have read : quenchCfgOf [o1, o2, l1, l2, f1, f2, f3, pv, dr, fl, on, off, idle] =
        if good then some _ else none :=
      if_congr (by simp only [Bool.and_eq_true, inRange_iff, decide_eq_true_eq, and_assoc, good]) rfl rfl
    rw [show exec c s = _ from exec_configureQuench_taken _ taken]
    obtain ⟨accepts, refuses⟩ := s.serveConfig_group tag _ _
      (fun c t => t.onCfg ({ · with quench := c })) rest read
    exact ⟨fun hg => congrArg Host.Outcome.next (accepts hg),
      fun hg => congrArg Host.Outcome.next (refuses hg)⟩
  · intro tag s lo hi x taken rest
    have flow : flowCfgOf [lo, hi] =
        if 1 ≤ lo ∧ lo ≤ 30 ∧ 2 ≤ hi ∧ hi ≤ 31 ∧ lo < hi then some _ else none :=
      if_congr (by simp only [Bool.and_eq_true, inRange_iff, decide_eq_true_eq, and_assoc]) rfl rfl
    have prestart : prestartOf [x] = if 1 ≤ x ∧ x ≤ 60 then some _ else none :=
      if_congr (inRange_iff _ _ _) rfl rfl
    rw [exec_configureFlow_taken _ taken, exec_configurePrestart_taken _ taken]
    obtain ⟨acceptsF, refusesF⟩ := s.serveConfig_group tag _ _
      (fun c t => t.onCfg ({ · with flow := c })) rest flow
    obtain ⟨acceptsP, refusesP⟩ := s.serveConfig_group tag _ _
      (fun c t => t.onCfg ({ · with prestart := c })) rest prestart
    exact ⟨fun hg => congrArg Host.Outcome.next (acceptsF hg),
      fun hg => congrArg Host.Outcome.next (refusesF hg),
      fun hg => congrArg Host.Outcome.next (acceptsP hg),
      fun hg => congrArg Host.Outcome.next (refusesP hg)⟩
  · intro tag s xs taken rest hl x good group
    have served : ∀ read, measureOf xs = read → exec (.configureMeasure tag xs) s = .next
        (match read with
        | some c => ((s.replied 0x82#8 tag .ok []).onCfg ({ · with measure := c })).onMeas
            (·.restartTimers c)
        | none => s.replied 0x82#8 tag .invalid []) := fun read hr => by
      rw [exec_configureMeasure_taken xs taken]
      unfold State.serveMeasure
      rw [← hl, State.serveConfig_read _ _ _ _ _ rest, hr]
      cases read <;> rfl
    exact ⟨fun hg => served _ (measureOf_eq_some xs hl hg), fun hg => served _ (measureOf_eq_none xs hg)⟩

end Sys2Proof.Machine

namespace Sys2Proof.Machine

/-! ### What ends a scan and a trip leave (R46, R144, R160) -/

theorem Zones.close_some (z : Zones) (c : EndCause) (time : Nat) (trip : Option TripRecord) (r : OpenRecord)
    (h : z.openRec = some r) :
    z.close c time trip = { z with closed := z.closed ++ [r.close c time trip], openRec := none } := by
  unfold Zones.close
  rw [h]

theorem Zones.close_none (z : Zones) (c : EndCause) (time : Nat) (trip : Option TripRecord)
    (h : z.openRec = none) : z.close c time trip = z := by
  unfold Zones.close
  rw [h]

/-- The entry to TRIPPED, block by block (R144). -/
theorem State.enterTripped_spec (s : State) : EnteredTripped s s.enterTripped := by
  refine ⟨s.enterTripped_seq, ?_, s.enterTripped_quench, s.enterTripped_store, s.enterTripped_trip,
    fun r hr => ⟨⟨_, r.close_closedFrom _ _ _, ?_⟩, ?_⟩, fun hr => ⟨?_, ?_⟩, ?_⟩
  · rw [State.enterTripped_travel, Travel.setSpindle_eq]
  · rw [State.enterTripped_zones, Zones.close_some _ _ _ _ r hr]
  · rw [State.enterTripped_link, hr]
    rfl
  · rw [State.enterTripped_zones, Zones.close_none _ _ _ _ hr]
  · rw [State.enterTripped_link, hr]
    rfl
  · simp [Keeps]

/-- The end of a run-out (R46, R165, R192). -/
theorem State.runoutComplete_link (s : State) (r : OpenRecord) (h : s.zones.openRec = some r) :
    s.runoutComplete.link =
      (s.link.stated .idle (.scanEnd (s.seq.lastEnd.getD .complete))).placeNotice (.record r.number) := by
  unfold State.runoutComplete
  dsimp only
  rw [State.scanOver_link, State.onQuench_link, State.closeRecord_link_some _ _ _ r (by simpa using h)]
  simp [Link.stated]

/-! ### STOPPED (R27, R44, R46, R51, R62, R140 to R142) -/

/-- A report that is due brings HOLD, and what its state waits for (R51). -/
theorem State.stoppingComplete_due (s : State) (hm : s.travel.mode = .stopping)
    (hr : s.travel.atRest = true) :
    s.stoppingComplete =
      let u := { s with travel := { s.travel with
        mode := .hold, targetSpeed := 0, stopPoint := none, dir := none, finish := .none,
        decision := .none } }
      match s.seq.state with
      | .homing => u.homingEnd
      | .positioning => u.enter .idle .stopped
      | .running => if s.seq.turnPhase = .stopping then u.beginReturn else u
      | .runout =>
        if s.quench.trailsEmpty then u.runoutComplete
        else u.onTravel (·.orderDrain s.seq.passDir s.runoutSpeed)
      | .tripping => u.trippingStopped
      | .unreferenced | .idle | .prestart | .tripped => u := by
  have held : s.travel.orderHold = { s.travel with
      mode := .hold, targetSpeed := 0, stopPoint := none, dir := none, finish := .none,
      decision := .none } := by
    unfold Travel.orderHold Travel.awake
    rw [if_neg (by rw [hm]; decide)]
  unfold State.stoppingComplete
  rw [if_pos ⟨hm, hr⟩]
  dsimp only [State.onTravel]
  rw [held]
  rfl

/-- The report in TRIPPING, where nothing is left to drain: the stop is seen, and the response may be complete (R140 to R142). -/
theorem State.trippingStopped_seen (s : State)
    (h : ¬(s.trip.response = some .runout ∧ s.quench.trailsEmpty = false)) :
    s.trippingStopped =
      (s.onTrip fun t =>
        { t with stoppedSeen := true, trailsSeen := s.quench.trailsEmpty }).tripProgress :=
  if_neg h

theorem State.tripProgress_done (s : State) (hs : s.seq.state = .tripping) (hd : s.trip.done = true) :
    s.tripProgress = s.enterTripped := by
  unfold State.tripProgress
  rw [if_pos (by rw [hs, hd]; rfl)]

/-- Settles O56, state by state: what waits for the report is `stoppingComplete_due`. -/
theorem stoppedReports : Obligations.StoppedReports := by
  intro s held due shift drained told
  have rest : due → s.travel.atRest = true := fun ⟨_, hp, hst⟩ => by
    unfold Travel.atRest Travel.stopped
    rw [hp, hst]
    rfl
  have reports : due → exec .stoppingComplete s = .next _ := fun hd =>
    congrArg Host.Outcome.next (s.stoppingComplete_due hd.1 (rest hd))
  refine ⟨fun hd => ?_, fun hd hs hf => ?_, fun hd hs hf => ?_, fun hd hs => ?_, fun a hd hs hp ha => ?_,
    fun r hd hs he hr => ?_, fun d hd he hdir hs => ?_, fun hd hs hresp => ?_, fun hd hs hresp hflood => ?_⟩
  case refine_1 =>
    refine congrArg Host.Outcome.next (if_neg fun ⟨hm, hr⟩ => hd ⟨hm, ?_⟩)
    unfold Travel.atRest Travel.stopped at hr
    simpa using hr
  all_goals rw [reports hd]; dsimp only
  case refine_2 =>
    rw [hs]
    exact congrArg Host.Outcome.next (if_pos hf)
  case refine_3 =>
    rw [hs]
    exact congrArg Host.Outcome.next (if_neg (by simpa using hf))
  case refine_4 =>
    rw [hs]
    rfl
  case refine_5 =>
    have served : ∀ u : State, u.seq.next = some a →
        u.beginReturn = (u.onSeq ({ · with turnPhase := .return })).onTravel
          (·.orderTarget a.start u.cfg.machine.returnSpeed) := fun u hn => by
      unfold State.beginReturn
      rw [hn]
    refine congrArg Host.Outcome.next (Eq.trans ?_ (served { s with travel := held } ha))
    rw [hs]
    exact if_pos hp
  case refine_6 =>
    rw [hs]
    dsimp only
    rw [if_pos he]
    refine ⟨_, _, rfl, State.runoutComplete_travel _, State.runoutComplete_seq _,
      r.close_closedFrom _ _ _, ?_, ?_, State.runoutComplete_store _, ?_, ?_⟩
    · rw [State.runoutComplete_zones, Zones.close_some _ _ _ _ r hr]
    · rw [State.runoutComplete_quench, Quench.idleStart_eq]
    · exact State.runoutComplete_link _ r hr
    · simp [Keeps]
  case refine_7 =>
    rcases hs with hs | ⟨hs, hresp⟩
    · rw [hs]
      dsimp only
      rw [if_neg (by rw [he]; decide), hdir]
      rfl
    · rw [hs]
      dsimp only
      unfold State.trippingStopped
      rw [if_pos ⟨hresp, he⟩]
      dsimp only [State.onTravel]
      rw [hdir]
      rfl
  case refine_8 =>
    have seen : ¬(s.trip.response = some .runout ∧ s.quench.trailsEmpty = false) := by
      rintro ⟨h1, h2⟩
      rcases hresp with h | ⟨_, h⟩ | ⟨h, _⟩ <;> simp_all
    have done : told.trip.done = true := by
      rcases hresp with h | ⟨h, he⟩ | ⟨h, hf⟩ <;> simp_all [TripUnit.done, told]
    refine ⟨_, rfl, ?_⟩
    rw [hs]
    dsimp only
    have entered := (State.trippingStopped_seen { s with travel := held } seen).trans
      (State.tripProgress_done told hs done)
    rw [entered]
    exact told.enterTripped_spec
  case refine_9 =>
    have seen : ¬(s.trip.response = some .runout ∧ s.quench.trailsEmpty = false) := by
      rw [hresp]
      simp
    rw [hs]
    exact congrArg Host.Outcome.next ((State.trippingStopped_seen { s with travel := held } seen).trans
      (told.tripProgress_floods hresp hflood))

end Sys2Proof.Machine

namespace Sys2Proof.Machine

/-! ### What a sample has read and tested (R48 to R50, R54, R59 to R61)

Orders to the generator and the spindle, trips, run-outs and activations leave what the sample measured and the conditions it found. -/

/-- The measured quantities and the conditions of a sample's tests. -/
structure Readings where
  position : Int
  speed : Int
  still : Nat
  soft : Bool
  low : Bool
  high : Bool
  encoder : Bool
  follow : Bool

def Travel.readings (t : Travel) : Readings :=
  ⟨t.position, t.speed, t.still, t.overSoft, t.overLow, t.overHigh, t.encoderFault, t.followingError⟩

namespace Travel

@[simp] theorem readings_orderStopping (t : Travel) : t.orderStopping.readings = t.readings := by
  unfold orderStopping
  split <;> rfl

@[simp] theorem readings_orderDrain (t : Travel) (d : Option Dir) (v : Nat) :
    (t.orderDrain d v).readings = t.readings := by
  unfold orderDrain
  cases d
  · exact t.readings_orderStopping
  · dsimp only
    split <;> rfl

@[simp] theorem readings_awake (t : Travel) : t.awake.readings = t.readings := by
  unfold awake
  split <;> rfl

@[simp] theorem readings_orderHold (t : Travel) : t.orderHold.readings = t.readings := t.readings_awake

@[simp] theorem readings_orderScan (t : Travel) (d : Dir) (v : Nat) :
    (t.orderScan d v).readings = t.readings := t.readings_awake

@[simp] theorem readings_orderDisabled (t : Travel) : t.orderDisabled.readings = t.readings := rfl

@[simp] theorem readings_standing (t : Travel) : t.standing.readings = t.readings := rfl

@[simp] theorem readings_setSpindle (t : Travel) (r : Nat) : (t.setSpindle r).readings = t.readings := by
  rw [Travel.setSpindle_eq]
  rfl

@[simp] theorem readings_decideBrake (t : Travel) (c : MachineCfg) (stop : Int) :
    (t.decideBrake c stop).readings = t.readings := rfl

/-- The advance and the command leave the readings and the order in force (R52, R53). -/
theorem drive_kept (t : Travel) (c : MachineCfg) :
    (t.drive c).readings = t.readings ∧ (t.drive c).mode = t.mode ∧
      (t.drive c).targetSpeed = t.targetSpeed := by
  have brakes : ∀ a, (t.brake a).readings = t.readings ∧ (t.brake a).mode = t.mode ∧
      (t.brake a).targetSpeed = t.targetSpeed := fun a => ⟨rfl, rfl, rfl⟩
  have cruises : ∀ a x, (t.cruise a x).readings = t.readings ∧ (t.cruise a x).mode = t.mode ∧
      (t.cruise a x).targetSpeed = t.targetSpeed := fun a x => ⟨rfl, rfl, rfl⟩
  have runs : ∀ a d p x, (t.runTo a d p x).readings = t.readings ∧ (t.runTo a d p x).mode = t.mode ∧
      (t.runTo a d p x).targetSpeed = t.targetSpeed := fun a d p x => by
    unfold runTo
    dsimp only
    split <;> exact ⟨rfl, rfl, rfl⟩
  have finishes : ∀ u : Travel, u.readings = t.readings ∧ u.mode = t.mode ∧
      u.targetSpeed = t.targetSpeed → u.finished.readings = t.readings ∧ u.finished.mode = t.mode ∧
      u.finished.targetSpeed = t.targetSpeed := fun u hu => by
    unfold finished
    split
    · exact hu
    · exact hu
  have advances : (t.advance c).readings = t.readings ∧ (t.advance c).mode = t.mode ∧
      (t.advance c).targetSpeed = t.targetSpeed := by
    unfold advance
    dsimp only
    split
    · exact ⟨rfl, rfl, rfl⟩
    · exact brakes _
    · exact brakes _
    · exact cruises _ _
    · exact cruises _ _
    · split
      · exact runs _ _ _ _
      · exact brakes _
    · split
      · exact finishes _ (brakes _)
      · exact finishes _ (runs _ _ _ _)
      · split
        · exact runs _ _ _ _
        · exact brakes _
        · exact cruises _ _
  exact advances

end Travel

namespace State

@[simp] theorem readings_enterTripped (s : State) : s.enterTripped.travel.readings = s.travel.readings := by
  rw [State.enterTripped_travel, Travel.readings_setSpindle]

@[simp] theorem readings_tripProgress (s : State) : s.tripProgress.travel.readings = s.travel.readings := by
  rcases s.tripProgress_cases with e | ⟨_, _, e⟩ <;> rw [e]
  exact s.readings_enterTripped

@[simp] theorem readings_haltOrders (s : State) : s.haltOrders.travel.readings = s.travel.readings :=
  s.travel.orderDisabled.readings_setSpindle 0

@[simp] theorem readings_furtherTrip (s : State) (src : Source) :
    (s.furtherTrip src).travel.readings = s.travel.readings := by
  rcases s.furtherTrip_cases src with e | ⟨_, e | e⟩ | ⟨_, e⟩ <;> rw [e]
  · rfl
  · rw [readings_tripProgress]
    exact State.readings_haltOrders _
  · rw [readings_tripProgress]
    exact s.travel.readings_orderStopping
  · exact State.readings_haltOrders _

@[simp] theorem readings_latchingTrip (s : State) (src : Source) (ch : Option Channel) :
    (s.latchingTrip src ch).travel.readings = s.travel.readings := by
  cases hrest : s.seq.state.isRest
  · rw [s.latchingTrip_moving src ch hrest, readings_tripProgress]
    unfold State.tripMoving
    cases s.chosenResponse src <;> dsimp only
    · rw [State.runoutResponse_eq _ rfl rfl]
      unfold State.offDriven
      split_ifs
      · exact s.travel.readings_orderStopping
      · exact s.travel.readings_orderStopping
      · exact s.travel.readings_orderStopping
      · exact s.travel.readings_orderDrain _ _
    · exact s.travel.readings_orderStopping
    · exact s.travel.readings_orderStopping
    · exact State.readings_haltOrders _
  · rw [s.latchingTrip_resting src ch hrest, readings_enterTripped]
    unfold State.tripResting
    cases s.chosenResponse src <;> dsimp only
    · rfl
    · rfl
    · rfl
    · exact State.readings_haltOrders _

@[simp] theorem readings_raise (s : State) (src : Source) (ch : Option Channel) :
    (s.raise src ch).travel.readings = s.travel.readings := by
  unfold State.raise
  split
  · rfl
  · rfl
  · split
    · exact s.readings_furtherTrip src
    · exact s.readings_latchingTrip src ch

@[simp] theorem readings_raiseIf (s : State) (was now : Bool) (src : Source) (ch : Option Channel) :
    (s.raiseIf was now src ch).travel.readings = s.travel.readings := by
  unfold State.raiseIf
  split
  · exact s.readings_raise src ch
  · rfl

@[simp] theorem readings_onTrails (s : State) (f : Quench → Quench) :
    (s.onTrails f).travel.readings = s.travel.readings :=
  (s.onQuench f).readings_raiseIf _ _ _ _

@[simp] theorem readings_runoutMotion (s : State) (b : Bool) :
    (s.runoutMotion b).travel.readings = s.travel.readings := by
  by_cases hs : s.seq.state = .runout
  · rcases s.runoutMotion_cases b hs with ⟨e, _⟩ | ⟨e, _⟩ | ⟨e, _⟩ <;> rw [e] <;> simp
  · rw [s.runoutMotion_other b hs]

@[simp] theorem readings_runoutEntry (s : State) (c : EndCause) (stop : Option Int) :
    (s.runoutEntry c stop).travel.readings = s.travel.readings := by
  rw [State.runoutEntry_eq, readings_runoutMotion, readings_onTrails]
  exact s.travel.readings_setSpindle 0

theorem readings_activate (s : State) (a : Admitted) :
    (s.activate a).travel.readings = s.travel.readings := by
  have travels : ∀ u : State, (u.handTravel a).travel.readings = u.travel.readings := fun u => by
    unfold State.handTravel
    split <;> simp
  have zones : ∀ u : State, (u.handZones a).travel = u.travel := fun u => by
    unfold State.handZones
    dsimp only
    split <;> rfl
  have spins : ∀ u : State, (u.handSpindle a).travel.readings = u.travel.readings := fun u => by
    unfold State.handSpindle
    split
    · exact u.travel.readings_setSpindle _
    · rfl
  have quenches : ∀ u : State, (u.handQuench a).travel.readings = u.travel.readings := fun u => by
    unfold State.handQuench
    dsimp only
    split
    · exact u.readings_onTrails _
    · exact u.readings_onTrails _
    · rfl
    · rfl
  unfold State.activate
  dsimp only
  rw [quenches, spins, zones, travels]
  simp

@[simp] theorem readings_proceed (s : State) : s.proceed.travel.readings = s.travel.readings := by
  unfold State.proceed
  split
  · split
    · split
      · exact s.travel.readings_orderHold
      · exact s.travel.readings_orderDrain _ _
    · exact s.readings_activate _
  · exact s.travel.readings_orderHold

theorem readings_stepEnd (s : State) : s.stepEnd.travel.readings = s.travel.readings := by
  unfold State.stepEnd
  split
  · rfl
  · rename_i a _
    have left : (s.clearActive a).travel = s.travel := by
      unfold State.clearActive
      dsimp only
      split <;> rfl
    dsimp only
    split_ifs
    · rw [readings_proceed, left]
    · rw [readings_runoutEntry, left]
    · rw [readings_runoutEntry, left]
    · rw [State.onTravel_travel, Travel.readings_orderHold, left]
    · rw [readings_runoutEntry, left]

theorem readings_brakeSample (s : State) : s.brakeSample.travel.readings = s.travel.readings := by
  unfold State.brakeSample
  split
  · split
    · split <;> rfl
    · rfl
  · rfl

/-- The tests of the mode in force, the step end or braking decision, and the advance (R55, R56, R62, R63). -/
def modeTested (s : State) (r : Reading) : State :=
  ((s.seekSample r.refSwitch).arrivalSample).scanSample

theorem readings_modeTested (s : State) (r : Reading) :
    (s.modeTested r).travel.readings = s.travel.readings := by
  have seeks : (s.seekSample r.refSwitch).travel.readings = s.travel.readings := by
    unfold State.seekSample
    split
    · split
      · exact s.travel.readings_orderStopping
      · split
        · split
          · exact s.travel.readings_orderStopping
          · rfl
        · rfl
    · rfl
  have arrives : ∀ u : State, u.arrivalSample.travel.readings = u.travel.readings := fun u => by
    unfold State.arrivalSample
    split
    · split
      · split_ifs <;> rfl
      · rfl
    · rfl
  unfold modeTested State.scanSample
  split
  · rw [readings_stepEnd, arrives, seeks]
  · rw [readings_brakeSample, arrives, seeks]

/-- A sample's own part: the measured quantities, its count, the releases and the low count (R48 to R50, R65, R97, R157). -/
def sampledPart (s : State) (r : Reading) : State :=
  let u := ((s.readSample r).countSample s.travel.position).quenchSample
  u.onTravel (·.tacho u.heatingZone.isSome)

/-- A sample is its own part, the tests of limits, those of the mode in force, and the advance (R48). -/
theorem positionSample_eq (s : State) (r : Reading) :
    s.positionSample r = (((s.sampledPart r).testLimits r).modeTested r).onTravel
      (·.drive (((s.sampledPart r).testLimits r).modeTested r).cfg.machine) := rfl

/-- The readings behind a sample are those behind its tests of limits. -/
theorem readings_positionSample (s : State) (r : Reading) :
    (s.positionSample r).travel.readings = ((s.sampledPart r).testLimits r).travel.readings := by
  rw [positionSample_eq, State.onTravel_travel, (Travel.drive_kept _ _).1, readings_modeTested]

end State

end Sys2Proof.Machine

namespace Sys2Proof.Machine

/-! ### The release of a ring, in the terms of the spec (R97 to R99, R104, R106) -/

/-- An entry is due at its spray position with lead (R97 to R99). -/
theorem ringDue_iff (c : QuenchCfg) (d : Dir) (pos v : Int) (r : Ring) (x : Int) :
    ringDue c d pos v r x = true ↔
      match d with
      | .forward => x ≤ pos - c.offset.get r + ((v.natAbs * c.lead.get r / 100 : Nat) : Int)
      | .reverse => pos + c.offset.get r - ((v.natAbs * c.lead.get r / 100 : Nat) : Int) ≤ x := by
  unfold ringDue releaseDue sprayPosition leadDistance
  cases d <;> simp [Dir.sign]

/-- The mark stays only over entries (R96). -/
theorem Trail.settle_mark_iff (t : Trail) :
    t.settle.fullMark = true ↔ t.fullMark = true ∧ t.entries ≠ [] := by
  unfold Trail.settle
  cases h : t.entries <;> simp

/-! ### The report of empty trails (R44, R46, R100, R140) -/

/-- A turn in its DRAIN (R44). -/
abbrev State.turnDrains (s : State) : Prop := s.seq.state = .running ∧ s.seq.turnPhase = .drain

/-- A RUNOUT response in TRIPPING (R140). -/
abbrev State.responseDrains (s : State) : Prop := s.seq.state = .tripping ∧ s.trip.response = some .runout


/-- Each owner of a drain begins its stop, in its own way. -/
theorem State.trailsEmptyReport_eq (s : State) :
    s.trailsEmptyReport = { s with
      seq := if s.turnDrains then { s.seq with turnPhase := .stopping } else s.seq
      trip := if s.responseDrains then { s.trip with trailsSeen := true } else s.trip
      travel := if s.turnDrains ∨ s.seq.state = .runout ∨ s.responseDrains then s.travel.orderStopping
        else s.travel } := by
  unfold State.trailsEmptyReport State.turnDrains State.responseDrains
  cases hs : s.seq.state <;> simp
  case running => split <;> rfl
  case runout => rfl
  case tripping => split <;> rfl

/-- The releases of a sample, and the report when they leave both trails empty (R99, R100). -/
theorem State.releaseSample_eq (s : State) :
    let q := s.releasedAt s.travel.position s.travel.speed s.travel.still
    s.releaseSample =
      if s.quench.trailsEmpty = false ∧ q.trailsEmpty = true
      then State.trailsEmptyReport { s with quench := q } else { s with quench := q } := by
  unfold State.releaseSample State.releasedAt
  cases hd : s.seq.passDir with
  | none => simp
  | some d =>
    dsimp only
    by_cases hst : s.travel.still = 20
    · have stopped : s.travel.stopped = true := by simp [Travel.stopped, hst]
      simp [stopped, hst]
    · have moving : s.travel.stopped = false := by simp [Travel.stopped, hst]
      rw [moving]
      simp only [Bool.false_eq_true, if_false, if_neg hst, Bool.and_eq_true, Bool.not_eq_true']
      refine if_congr and_comm rfl rfl


/-! ### A sample's own part (R48 to R50, R65, R99, R107, R157) -/

/-- An update that keeps the number of the open record. -/
theorem Zones.onOpen_number (z : Zones) (f : OpenRecord → OpenRecord) (h : ∀ r, (f r).number = r.number) :
    (z.onOpen f).openRec.map (·.number) = z.openRec.map (·.number) := by
  unfold Zones.onOpen
  cases z.openRec
  · rfl
  · exact congrArg some (h _)

theorem OpenRecord.sample_number (r : OpenRecord) (running inhibit : Bool) (before now : Int) :
    (r.sample running inhibit before now).number = r.number := by
  unfold OpenRecord.sample
  split
  · split <;> rfl
  · rfl

/-- The quench-short report touches the zones of the open record alone (R107). -/
theorem State.quenchShort_zones (s : State) (k : Ring) :
    ∃ z, s.quenchShort k = { s with zones := z } ∧
      z.openRec.map (·.number) = s.zones.openRec.map (·.number) := by
  unfold State.quenchShort
  split
  · split
    · exact ⟨_, rfl, s.zones.onOpen_number _ fun _ => rfl⟩
    · exact ⟨_, rfl, rfl⟩
  · exact ⟨_, rfl, rfl⟩

/-- The low count leaves the rest of the carriage (R65). -/
theorem Travel.tacho_eq (t : Travel) (heating : Bool) :
    ∃ n low, t.tacho heating = { t with lowCount := n, spindleLow := low } := by
  unfold Travel.tacho
  split
  · exact ⟨_, _, rfl⟩
  · exact ⟨_, _, rfl⟩

/-- The releases of a sample that found `x` leave the trails empty, and they were not (R100). -/
abbrev State.emptiedAt (s : State) (x : Travel) : Prop :=
  s.quench.trailsEmpty = false ∧ (s.releasedAt x.position x.speed x.still).trailsEmpty = true

/-- Trails left empty order a stop (R44, R46, R100, R140). -/
abbrev State.stopsAt (s : State) (x : Travel) : Prop :=
  s.emptiedAt x ∧ (s.turnDrains ∨ s.seq.state = .runout ∨ s.responseDrains)

/-- What a sample that measured `x` has done to the carriage before its tests: plan, drive and reference as they were, the order that of
empty trails or the one in force. -/
structure SampledTravel (s : State) (x t : Travel) : Prop where
  readings : t.readings = x.readings
  plan : t.plan = s.travel.plan
  planSpeed : t.planSpeed = s.travel.planSpeed
  enable : t.driveEnable = s.travel.driveEnable
  referenced : t.referenced = s.travel.referenced
  stops : s.stopsAt x → s.travel.mode ≠ .disabled → t.mode = .stopping ∧ t.targetSpeed = 0

theorem Travel.orderStopping_kept (t : Travel) :
    t.orderStopping.plan = t.plan ∧ t.orderStopping.planSpeed = t.planSpeed ∧
      t.orderStopping.driveEnable = t.driveEnable ∧ t.orderStopping.referenced = t.referenced := by
  unfold Travel.orderStopping
  split <;> exact ⟨rfl, rfl, rfl, rfl⟩

/-- A sample's own part, block by block. -/
theorem State.sampledPart_spec (s : State) (r : Reading) :
    let x := s.travel.measure r.counts
    ∃ z t, s.sampledPart r = { s with
        quench := s.releasedAt x.position x.speed x.still
        seq := if s.emptiedAt x ∧ s.turnDrains then { s.seq with turnPhase := .stopping } else s.seq
        trip := if s.emptiedAt x ∧ s.responseDrains then { s.trip with trailsSeen := true } else s.trip
        zones := z, travel := t } ∧
      z.openRec.map (·.number) = s.zones.openRec.map (·.number) ∧ SampledTravel s x t := by
  intro x
  obtain ⟨u, hu⟩ : ∃ u, u = (s.readSample r).countSample s.travel.position := ⟨_, rfl⟩
  have counted : u.zones.openRec.map (·.number) = s.zones.openRec.map (·.number) := by
    rw [hu]
    exact s.zones.onOpen_number _ fun o => o.sample_number _ _ _ _
  have released : ∃ t, u.releaseSample = { s with
      quench := s.releasedAt x.position x.speed x.still
      seq := if s.emptiedAt x ∧ s.turnDrains then { s.seq with turnPhase := .stopping } else s.seq
      trip := if s.emptiedAt x ∧ s.responseDrains then { s.trip with trailsSeen := true } else s.trip
      zones := u.zones, travel := t } ∧ SampledTravel s x t := by
    have eq := u.releaseSample_eq
    have at' : u.releasedAt u.travel.position u.travel.speed u.travel.still =
        s.releasedAt x.position x.speed x.still := by
      rw [hu]
      rfl
    have same : u.quench = s.quench := by rw [hu]; rfl
    dsimp only at eq
    rw [at', same] at eq
    by_cases he : s.emptiedAt x
    · rw [if_pos he, State.trailsEmptyReport_eq] at eq
      refine ⟨if s.turnDrains ∨ s.seq.state = .runout ∨ s.responseDrains then u.travel.orderStopping
        else u.travel, ?_, ?_⟩
      · rw [eq, hu]
        exact State.eq_of_blocks rfl (if_congr (and_iff_right he).symm rfl rfl) rfl rfl rfl rfl
          (if_congr (and_iff_right he).symm rfl rfl) rfl rfl rfl rfl rfl
      · obtain ⟨plan, planSpeed, enable, referenced⟩ := u.travel.orderStopping_kept
        subst hu
        split
        · exact ⟨Travel.readings_orderStopping _, plan, planSpeed, enable, referenced, fun _ hm =>
            (Travel.orders_spec ((s.readSample r).countSample s.travel.position).travel hm).1⟩
        · rename_i hn
          exact ⟨rfl, rfl, rfl, rfl, rfl, fun hs => absurd hs.2 hn⟩
    · rw [if_neg he] at eq
      refine ⟨u.travel, ?_, ?_⟩
      · rw [eq, hu]
        exact State.eq_of_blocks rfl (if_neg fun h => he h.1).symm rfl rfl rfl rfl
          (if_neg fun h => he h.1).symm rfl rfl rfl rfl rfl
      · subst hu
        exact ⟨rfl, rfl, rfl, rfl, rfl, fun hs => absurd hs.1 he⟩
  obtain ⟨t, eq, held⟩ := released
  obtain ⟨z1, eq1, number1⟩ := u.releaseSample.quenchShort_zones .q1
  obtain ⟨z2, eq2, number2⟩ := (u.releaseSample.quenchShort .q1).quenchShort_zones .q2
  have whole : s.sampledPart r = { u.releaseSample with
      zones := z2
      travel := u.releaseSample.travel.tacho
        ((u.releaseSample.quenchShort .q1).quenchShort .q2).heatingZone.isSome } := by
    unfold State.sampledPart State.quenchSample
    dsimp only
    rw [← hu, eq2, eq1]
    rfl
  obtain ⟨n, low, tacho⟩ := t.tacho_eq
    ((u.releaseSample.quenchShort .q1).quenchShort .q2).heatingZone.isSome
  have number : z2.openRec.map (·.number) = s.zones.openRec.map (·.number) := by
    rw [number2, eq1]
    exact number1.trans ((congrArg (fun w : State => w.zones.openRec.map (·.number)) eq).trans counted)
  have travel : u.releaseSample.travel = t := congrArg State.travel eq
  refine ⟨z2, { t with lowCount := n, spindleLow := low }, ?_, number, ?_⟩
  · rw [whole, travel, tacho, eq]
  · exact ⟨held.readings, held.plan, held.planSpeed, held.enable, held.referenced, held.stops⟩

end Sys2Proof.Machine

namespace Sys2Proof.Machine

/-! ### The tests of limits at a sample (R54, R59 to R61) -/

/-- A condition that is not newly present raises nothing (R130). -/
theorem State.raiseIf_none (s : State) (was now : Bool) (src : Source) (ch : Option Channel)
    (h : now = true → was = true) : s.raiseIf was now src ch = s := by
  unfold State.raiseIf
  rw [if_neg]
  cases now <;> simp_all

/-- A condition newly present raises its source (R130). -/
theorem State.raiseIf_new (s : State) (src : Source) (ch : Option Channel) :
    s.raiseIf false true src ch = s.raise src ch := rfl

/-- No condition of a sample's tests is newly present (R130). -/
structure Readings.NoneNew (a b : Readings) : Prop where
  soft : b.soft = true → a.soft = true
  low : b.low = true → a.low = true
  high : b.high = true → a.high = true
  encoder : b.encoder = true → a.encoder = true
  follow : b.follow = true → a.follow = true

theorem noneRaised_iff (s t : State) : NoneRaised s t ↔ s.travel.readings.NoneNew t.travel.readings :=
  ⟨fun ⟨h1, h2, h3, h4, h5⟩ => ⟨h1, h2, h3, h4, h5⟩, fun h => ⟨h.soft, h.low, h.high, h.encoder, h.follow⟩⟩

/-- Each test sets its own condition, raised or not. -/
theorem State.readings_tests (s : State) :
    s.testSoft.travel.readings =
        { s.travel.readings with soft := s.travel.softViolation s.cfg.machine } ∧
      (∀ b, (s.testLow b).travel.readings =
        { s.travel.readings with low := b && s.travel.movesReverse }) ∧
      (∀ b, (s.testHigh b).travel.readings =
        { s.travel.readings with high := b && s.travel.movesForward }) ∧
      (∀ b, (s.testEncoder b).travel.readings = { s.travel.readings with encoder := b }) ∧
      s.testFollow.travel.readings =
        { s.travel.readings with follow := s.travel.followViolation s.cfg.machine } :=
  ⟨State.readings_raiseIf _ _ _ _ _, fun _ => State.readings_raiseIf _ _ _ _ _,
    fun _ => State.readings_raiseIf _ _ _ _ _, fun _ => State.readings_raiseIf _ _ _ _ _,
    State.readings_raiseIf _ _ _ _ _⟩

/-- From `s` to `u` at most conditions and reference of the carriage have changed. -/
def State.Tested (s u : State) : Prop :=
  ∃ t, u = { s with travel := t } ∧ t.mode = s.travel.mode ∧ t.targetSpeed = s.travel.targetSpeed ∧
    t.position = s.travel.position ∧ t.speed = s.travel.speed ∧ t.still = s.travel.still

theorem State.Tested.trans {s u v : State} (h : s.Tested u) (h' : u.Tested v) : s.Tested v := by
  obtain ⟨t, rfl, mode, target, position, speed, still⟩ := h
  obtain ⟨t', rfl, mode', target', position', speed', still'⟩ := h'
  exact ⟨t', rfl, mode'.trans mode, target'.trans target, position'.trans position, speed'.trans speed,
    still'.trans still⟩

/-- A test that raises nothing. -/
theorem State.tested_of_none (s : State) (f : Travel → Travel) (was now : Bool) (src : Source)
    (h : now = true → was = true) (hf : (f s.travel).mode = s.travel.mode ∧
      (f s.travel).targetSpeed = s.travel.targetSpeed ∧ (f s.travel).position = s.travel.position ∧
      (f s.travel).speed = s.travel.speed ∧ (f s.travel).still = s.travel.still) :
    s.Tested ((s.onTravel f).raiseIf was now src) :=
  ⟨f s.travel, State.raiseIf_none _ _ _ _ _ h, hf⟩

/-- Tests that raise nothing change conditions and reference of the carriage, and nothing else. -/
theorem State.testLimits_none (s : State) (r : Reading)
    (h : s.travel.readings.NoneNew (s.testLimits r).travel.readings) : s.Tested (s.testLimits r) := by
  obtain ⟨soft, low, high, encoder, follow⟩ := h
  have r1 := s.readings_tests.1
  unfold State.testLimits at soft low high encoder follow ⊢
  generalize hu1 : s.testSoft = u1 at r1 soft low high encoder follow ⊢
  have r2 := u1.readings_tests.2.1 r.lowSwitch
  generalize hu2 : u1.testLow r.lowSwitch = u2 at r2 soft low high encoder follow ⊢
  have r3 := u2.readings_tests.2.2.1 r.highSwitch
  generalize hu3 : u2.testHigh r.highSwitch = u3 at r3 soft low high encoder follow ⊢
  have r4 := u3.readings_tests.2.2.2.1 s.inputs.encoder
  generalize hu4 : u3.testEncoder s.inputs.encoder = u4 at r4 soft low high encoder follow ⊢
  rw [u4.readings_tests.2.2.2.2] at soft low high encoder follow
  rw [r4, r3, r2, r1] at soft
  rw [r4, r3, r2] at low
  rw [r4, r3] at high
  rw [r4] at encoder
  have wasLow : u1.travel.overLow = s.travel.overLow := congrArg Readings.low r1
  have wasHigh : u2.travel.overHigh = s.travel.overHigh :=
    (congrArg Readings.high r2).trans (congrArg Readings.high r1)
  have wasEncoder : u3.travel.encoderFault = s.travel.encoderFault :=
    (congrArg Readings.encoder r3).trans ((congrArg Readings.encoder r2).trans
      (congrArg Readings.encoder r1))
  have wasFollow : u4.travel.followingError = s.travel.followingError :=
    (congrArg Readings.follow r4).trans ((congrArg Readings.follow r3).trans
      ((congrArg Readings.follow r2).trans (congrArg Readings.follow r1)))
  have t1 : s.Tested u1 := hu1 ▸ s.tested_of_none _ _ _ _ soft ⟨rfl, rfl, rfl, rfl, rfl⟩
  have t2 : u1.Tested u2 := hu2 ▸ u1.tested_of_none _ _ _ _ (wasLow ▸ low) ⟨rfl, rfl, rfl, rfl, rfl⟩
  have t3 : u2.Tested u3 := hu3 ▸ u2.tested_of_none _ _ _ _ (wasHigh ▸ high) ⟨rfl, rfl, rfl, rfl, rfl⟩
  have t4 : u3.Tested u4 := hu4 ▸ u3.tested_of_none _ _ _ _ (wasEncoder ▸ encoder) ⟨rfl, rfl, rfl, rfl, rfl⟩
  have t5 : u4.Tested u4.testFollow := u4.tested_of_none _ _ _ _ (wasFollow ▸ follow)
    ⟨rfl, rfl, rfl, rfl, rfl⟩
  exact (((t1.trans t2).trans t3).trans t4).trans t5

/-! ### The tests of the mode in force that end no step (R55, R56, R62, R63) -/

/-- From `s` to `u` the carriage alone has changed; what it measured stands, and so does a stop in force. -/
def State.Ordered (s u : State) : Prop :=
  ∃ t, u = { s with travel := t } ∧ t.readings = s.travel.readings ∧
    (s.travel.mode = .stopping → t.mode = .stopping ∧ t.targetSpeed = s.travel.targetSpeed)

theorem State.Ordered.refl (s : State) : s.Ordered s := ⟨_, rfl, rfl, fun h => ⟨h, rfl⟩⟩

theorem State.Ordered.trans {s u v : State} (h : s.Ordered u) (h' : u.Ordered v) : s.Ordered v := by
  obtain ⟨t, rfl, readings, stops⟩ := h
  obtain ⟨t', rfl, readings', stops'⟩ := h'
  refine ⟨t', rfl, readings'.trans readings, fun hm => ?_⟩
  obtain ⟨mode, target⟩ := stops hm
  obtain ⟨mode', target'⟩ := stops' mode
  exact ⟨mode', target'.trans target⟩

/-- An order to a carriage in another mode. -/
theorem State.Ordered.of_other {s : State} (f : Travel → Travel)
    (hr : (f s.travel).readings = s.travel.readings) (hm : s.travel.mode ≠ .stopping) :
    s.Ordered (s.onTravel f) := ⟨f s.travel, rfl, hr, fun h => absurd h hm⟩

theorem State.seekSample_ordered (s : State) (switch : Bool) : s.Ordered (s.seekSample switch) := by
  unfold State.seekSample
  split
  · rename_i hm
    have other : s.travel.mode ≠ .stopping := by rw [hm]; decide
    split
    · exact .of_other _ s.travel.readings_orderStopping other
    · split
      · split
        · exact .of_other _ s.travel.readings_orderStopping other
        · exact .refl s
      · exact .refl s
  · exact .refl s

theorem State.arrivalSample_ordered (s : State) : s.Ordered s.arrivalSample := by
  unfold State.arrivalSample
  split
  · rename_i h
    split
    · split_ifs
      · exact .of_other _ rfl (by rw [h.2]; decide)
      · exact .refl s
    · exact .refl s
  · exact .refl s

theorem State.brakeSample_ordered (s : State) : s.Ordered s.brakeSample := by
  unfold State.brakeSample
  split
  · split
    · rename_i h
      have other : s.travel.mode ≠ .stopping := by
        simp only [Bool.and_eq_true, beq_iff_eq] at h
        rw [h.1.1.2]
        decide
      split
      · exact .of_other _ rfl other
      · exact .of_other _ rfl other
    · exact .refl s
  · exact .refl s

/-- Away from the end of the Active motion step a sample ends no step. -/
theorem State.modeTested_ordered (s : State) (r : Reading)
    (h : ∀ a d, s.seq.active = some a → a.step.isMotion = true → a.dir = some d →
      d.reached s.travel.position a.stop = false) : s.Ordered (s.modeTested r) := by
  have before := (s.seekSample_ordered r.refSwitch).trans (State.arrivalSample_ordered _)
  have due : ((s.seekSample r.refSwitch).arrivalSample).stepEndDue = false := by
    obtain ⟨t, e, readings, _⟩ := before
    have position : t.position = s.travel.position := congrArg Readings.position readings
    unfold State.stepEndDue
    rw [e]
    dsimp only
    rw [position]
    cases ha : s.seq.active with
    | none => rfl
    | some a =>
      dsimp only
      cases hm : a.step.isMotion
      · rfl
      · cases hd : a.dir with
        | none => rfl
        | some d => exact h a d ha hm hd
  unfold State.modeTested State.scanSample
  rw [due]
  exact before.trans (State.brakeSample_ordered _)

/-- A sample that raises nothing and ends no step: its own part, and the carriage (R48). -/
theorem State.positionSample_quiet (s : State) (r : Reading) (h : NoneRaised s (s.positionSample r))
    (hend : ∀ a d, s.seq.active = some a → a.step.isMotion = true → a.dir = some d →
      d.reached (s.positionSample r).travel.position a.stop = false) :
    let t := s.positionSample r
    t.quench = s.releasedAt t.travel.position t.travel.speed t.travel.still ∧
      t.seq = (if s.emptiedAt t.travel ∧ s.turnDrains then { s.seq with turnPhase := .stopping }
        else s.seq) ∧
      t.trip = (if s.emptiedAt t.travel ∧ s.responseDrains then { s.trip with trailsSeen := true }
        else s.trip) ∧
      (s.stopsAt t.travel → s.travel.mode ≠ .disabled →
        t.travel.mode = .stopping ∧ t.travel.targetSpeed = 0) := by
  have whole := s.positionSample_eq r
  obtain ⟨z, t, e, _, held⟩ := s.sampledPart_spec r
  have flags : s.travel.readings.NoneNew (s.positionSample r).travel.readings := (noneRaised_iff _ _).1 h
  have readings := s.readings_positionSample r
  rw [readings] at flags
  have own : (s.sampledPart r).travel.readings = (s.travel.measure r.counts).readings := by
    rw [e]
    exact held.readings
  have none' : (s.sampledPart r).travel.readings.NoneNew
      ((s.sampledPart r).testLimits r).travel.readings := by
    rw [own]
    exact ⟨flags.soft, flags.low, flags.high, flags.encoder, flags.follow⟩
  obtain ⟨t', e', mode, target, position, speed, still⟩ := (s.sampledPart r).testLimits_none r none'
  have away : ((s.sampledPart r).testLimits r).Ordered (((s.sampledPart r).testLimits r).modeTested r) := by
    refine State.modeTested_ordered _ r fun a d ha hm hd => ?_
    have active : ((s.sampledPart r).testLimits r).seq.active = s.seq.active := by
      rw [e', e]
      dsimp only
      split <;> rfl
    have found : ((s.sampledPart r).testLimits r).travel.position =
        (s.positionSample r).travel.position := (congrArg Readings.position readings).symm
    rw [found]
    exact hend a d (active ▸ ha) hm hd
  obtain ⟨t'', e'', readings'', stops⟩ := away
  have travel : (s.sampledPart r).travel = t := congrArg State.travel e
  have travel' : ((s.sampledPart r).testLimits r).travel = t' := congrArg State.travel e'
  rw [travel] at mode target position speed still
  rw [travel'] at readings'' stops
  obtain ⟨drove, mode3, target3⟩ := t''.drive_kept
    (((s.sampledPart r).testLimits r).modeTested r).cfg.machine
  have final : s.positionSample r = { s.sampledPart r with
      travel := t''.drive (((s.sampledPart r).testLimits r).modeTested r).cfg.machine } := by
    rw [whole, e'', e']
    rfl
  have measured := drove.trans readings''
  have travel'' : (s.positionSample r).travel =
      t''.drive (((s.sampledPart r).testLimits r).modeTested r).cfg.machine := congrArg State.travel final
  have released : s.releasedAt (s.positionSample r).travel.position (s.positionSample r).travel.speed
      (s.positionSample r).travel.still = s.releasedAt (s.travel.measure r.counts).position
        (s.travel.measure r.counts).speed (s.travel.measure r.counts).still := by
    rw [travel'']
    congr 1
    · exact (congrArg Readings.position measured).trans
        (position.trans (congrArg Readings.position held.readings))
    · exact (congrArg Readings.speed measured).trans
        (speed.trans (congrArg Readings.speed held.readings))
    · exact (congrArg Readings.still measured).trans
        (still.trans (congrArg Readings.still held.readings))
  have emptied : s.emptiedAt (s.travel.measure r.counts) ↔ s.emptiedAt (s.positionSample r).travel := by
    unfold State.emptiedAt
    rw [released]
  have part := final.trans (congrArg (fun u : State => { u with
    travel := t''.drive (((s.sampledPart r).testLimits r).modeTested r).cfg.machine }) e)
  refine ⟨(congrArg State.quench part).trans released.symm,
    (congrArg State.seq part).trans (if_congr (and_congr_left' emptied) rfl rfl),
    (congrArg State.trip part).trans (if_congr (and_congr_left' emptied) rfl rfl), fun hs hm => ?_⟩
  obtain ⟨m1, v1⟩ := held.stops ⟨emptied.2 hs.1, hs.2⟩ hm
  obtain ⟨m2, v2⟩ := stops (mode.trans m1)
  rw [travel'']
  exact ⟨mode3.trans m2, target3.trans (v2.trans (target.trans v1))⟩

/-- Settles O46: the release of a ring from `Quench.release_eq`, the quiet sample block by block. -/
theorem releaseTakesDueEntries : Obligations.ReleaseTakesDueEntries := by
  refine ⟨?_, ?_⟩
  · intro q c d pos v r lead due q'
    have due_iff : ∀ x, ringDue c d pos v r x = true ↔ due x := fun x => ringDue_iff c d pos v r x
    have whole : q' = _ := q.release_eq c d pos v r
    let released : TrailEntry → Bool := (ringDue c d pos v r ·.pos)
    have entries : (q'.trail.get r).entries =
        (q.trail.get r).entries.dropWhile released := by
      rw [whole]
      dsimp only
      rw [PerRing.get_set_self, Trail.settle_entries]
    have circuit : q'.circuit.get r.circuit = (q.circuit.get r.circuit).passed c r.circuit
        ((q.trail.get r).entries.takeWhile released) := by
      rw [whole]
      exact PerCircuit.get_set_self _ _ _
    refine ⟨(q.trail.get r).entries.takeWhile released, ?_, ?_, ?_, ?_, circuit, ?_,
      ?_, ?_, ?_⟩
    · rw [entries, List.takeWhile_append_dropWhile]
    · intro e he
      exact (due_iff _).1 (List.mem_takeWhile_imp (p := released) he)
    · intro e rest he hd
      rw [entries] at he
      have kept := List.head?_dropWhile_not released (q.trail.get r).entries
      rw [he] at kept
      have out : released e = false := kept
      have due' : released e = true := (due_iff _).2 hd
      rw [due'] at out
      cases out
    · rw [circuit, CircuitState.passed_valve]
      rfl
    · rw [entries, whole]
      dsimp only
      rw [PerRing.get_set_self, Trail.settle_mark_iff]
    · intro r' hr
      rw [whole]
      exact PerRing.get_set_ne _ _ hr
    · intro k hk
      rw [whole]
      exact PerCircuit.get_set_ne _ _ hk
    · rw [whole]
  · intro counts rpm ref low high s t e quiet hend
    cases e
    obtain ⟨quench, seq, trip, stops⟩ := s.positionSample_quiet _ quiet hend
    exact ⟨quench, seq, trip, fun he ho hm => stops ⟨he, ho⟩ hm⟩

end Sys2Proof.Machine

namespace Sys2Proof.Machine

/-! ### A trip taken from a like state (R137, R138) -/

/-- Two states in which a latching trip records and tells the same. -/
structure State.TripsAlike (s u : State) : Prop where
  seq : ∃ phase, u.seq = { s.seq with turnPhase := phase }
  output : u.power.pOut = s.power.pOut
  acc : u.power.acc = s.power.acc
  inhibit : u.power.inhibit = s.power.inhibit
  position : u.travel.position = s.travel.position
  speed : u.travel.speed = s.travel.speed
  number : u.zones.openRec.map (·.number) = s.zones.openRec.map (·.number)
  rest : Keeps s u [.seq, .power, .travel, .quench, .trip, .zones, .inputs]

/-- The notices of a trip name the open record by its number alone (R192). -/
theorem State.tripTold_congr {s u : State} (hlink : u.link = s.link) (hs : u.seq.state = s.seq.state)
    (hnumber : u.zones.openRec.map (·.number) = s.zones.openRec.map (·.number)) (src : Source)
    (ch : Option Channel) (entered : Bool) : u.tripTold src ch entered = s.tripTold src ch entered := by
  unfold State.tripTold
  rw [hlink, hs]
  dsimp only
  cases hu : u.zones.openRec <;> cases hz : s.zones.openRec
  case none.none => rfl
  case some.some a b =>
    rw [hu, hz] at hnumber
    have number : a.number = b.number := by simpa using hnumber
    dsimp only
    rw [number]
  all_goals
    rw [hu, hz] at hnumber
    cases hnumber

theorem Latched.of_alike {s u t : State} {src : Source} {ch : Option Channel} (h : Latched u t src ch)
    (a : s.TripsAlike u) : Latched s t src ch := by
  obtain ⟨hpending, hcfg, _, _, _, _, hmeas, _, _, hstore, hlink, _⟩ := a.rest
  simp only [List.mem_cons, List.not_mem_nil, or_false, reduceCtorEq, false_or] at hcfg hmeas hstore hlink
  obtain ⟨phase, seq⟩ := a.seq
  obtain ⟨latch, ⟨r, hr, cause, chan, state, pos, speed, out, active, time⟩, entered, off, acc, inhibit,
    flushed, trimT, trimS, shadow, count, last, position, speed', meas, cfg, pages, pending, link⟩ := h
  have told := State.tripTold_congr hlink (by rw [seq]) a.number
  rw [seq] at state active time entered trimT trimS shadow count last
  exact ⟨latch, ⟨r, hr, cause, chan, state, pos.trans a.position, speed.trans a.speed, out.trans a.output,
    active, time⟩, entered, off, acc.trans a.acc, inhibit.trans a.inhibit, flushed, trimT, trimS, shadow,
    count, last, position.trans a.position, speed'.trans a.speed, meas.trans hmeas, cfg.trans hcfg,
    pages.trans (congrArg Store.pages hstore), pending.trans hpending, link.trans (told _ _ _)⟩

/-- A TRIP-class source raised with the latch clear is a latching trip (R137). -/
theorem State.raise_latching (s : State) (src : Source) (ch : Option Channel)
    (hc : s.classOf src = .trip) (hl : s.trip.latch = false) :
    s.raise src ch = s.latchingTrip src ch := by
  unfold State.raise
  rw [hc]
  dsimp only
  rw [if_neg (by rw [hl]; decide)]

/-! ### HALT (R143 to R145) -/

/-- A latching trip whose response is HALT is in TRIPPED at once, with the scan over (R143, R144, R145). -/
theorem State.latchingTrip_halts (s : State) (src : Source) (ch : Option Channel)
    (hr : s.chosenResponse src = .halt) :
    ∃ (u : State) (q : Quench), s.latchingTrip src ch = u.enterTripped ∧
      u.quench = (q.discard true).pumpOff ∧
      u.travel = s.travel.orderDisabled.setSpindle 0 ∧ u.trip.response = some .halt ∧
      u.inputs = s.inputs := by
  cases hrest : s.seq.state.isRest
  · rw [s.latchingTrip_moving src ch hrest, State.tripProgress_done _
      (by rw [(s.tripMoving_ordered src ch).1.seq]; rfl)
      (by unfold State.tripMoving; rw [hr]; rfl)]
    refine ⟨_, s.tripQuench .halt, rfl, ?_, ?_, ?_, ?_⟩ <;> unfold State.tripMoving <;> rw [hr] <;> rfl
  · rw [s.latchingTrip_resting src ch hrest]
    refine ⟨_, s.tripQuench .halt, rfl, ?_, ?_, ?_, ?_⟩ <;> unfold State.tripResting <;> rw [hr] <;> rfl

theorem State.enterTripped_halted (u : State) (q : Quench) (x : Travel)
    (hq : u.quench = (q.discard true).pumpOff) (ht : u.travel = x.orderDisabled.setSpindle 0) :
    Halted u.enterTripped := by
  have quench : u.enterTripped.quench = (q.discard true).pumpOff := by
    rw [State.enterTripped_quench, hq]
    rfl
  have travel : u.enterTripped.travel = (x.orderDisabled.setSpindle 0).setSpindle 0 := by
    rw [State.enterTripped_travel, ht]
  have state : u.enterTripped.seq.state = .tripped := by rw [State.enterTripped_seq]
  refine ⟨state, ?_, ?_, ?_, ?_, ?_, ?_, ?_, ?_, ?_, ?_⟩
  · rw [travel, Travel.setSpindle_eq, Travel.setSpindle_eq]; rfl
  · rw [travel, Travel.setSpindle_eq, Travel.setSpindle_eq]; rfl
  · rw [travel, Travel.setSpindle_eq, Travel.setSpindle_eq]; rfl
  · rw [travel, Travel.setSpindle_eq]
  all_goals rw [quench]; rfl

/-! ### The orders of the other responses (R140 to R142, R145) -/

/-- What a response's orders have left of trails, circuits, generator and progress stands. -/
structure State.SameOrders (u t : State) : Prop where
  trail : t.quench.trail = u.quench.trail
  circuit : t.quench.circuit = u.quench.circuit
  owner : t.quench.q3Owner = u.quench.q3Owner
  flood : t.quench.floodTimer = u.quench.floodTimer
  mode : t.travel.mode = u.travel.mode
  plan : t.travel.plan = u.travel.plan
  planSpeed : t.travel.planSpeed = u.travel.planSpeed
  target : t.travel.targetSpeed = u.travel.targetSpeed
  dir : t.travel.dir = u.travel.dir
  response : t.trip.response = u.trip.response
  trails : t.trip.trailsSeen = u.trip.trailsSeen
  stopped : t.trip.stoppedSeen = u.trip.stoppedSeen

theorem State.enterTripped_sameOrders (u : State) : u.SameOrders u.enterTripped := by
  have quench : ∀ q : Quench, ∀ c, (q.idleStart c).trail = q.trail ∧ (q.idleStart c).circuit = q.circuit ∧
      (q.idleStart c).q3Owner = q.q3Owner ∧ (q.idleStart c).floodTimer = q.floodTimer := fun q c => by
    rw [Quench.idleStart_eq]
    unfold Quench.idling
    split_ifs <;> exact ⟨rfl, rfl, rfl, rfl⟩
  obtain ⟨trail, circuit, owner, flood⟩ := quench u.quench u.cfg.quench
  constructor
  case trail => rw [State.enterTripped_quench]; split <;> simp [trail]
  case circuit => rw [State.enterTripped_quench]; split <;> simp [circuit]
  case owner => rw [State.enterTripped_quench]; split <;> simp [owner]
  case flood => rw [State.enterTripped_quench]; split <;> simp [flood]
  all_goals simp [Travel.setSpindle_eq]

theorem State.tripProgress_sameOrders (u : State) : u.SameOrders u.tripProgress := by
  rcases u.tripProgress_cases with e | ⟨_, _, e⟩ <;> rw [e]
  · constructor <;> rfl
  · exact u.enterTripped_sameOrders

theorem State.tripProgress_state (u : State) (hs : u.seq.state = .tripping) :
    u.tripProgress.seq.state = if u.trip.done then .tripped else .tripping := by
  cases hd : u.trip.done
  · have stays : u.tripProgress = u := by
      unfold State.tripProgress
      rw [if_neg (by rw [hd]; simp)]
    rw [stays]
    exact hs
  · rw [u.tripProgress_done hs hd, State.enterTripped_seq]
    rfl

/-- The close of Q3 by a SPRAY step that leaves Active, and only by one (R35, R102). -/
theorem State.unsprayed_q3 (s : State) :
    (s.quench.q3Owner ≠ .spray → s.unsprayed = s.quench) ∧
      ∀ a n, s.seq.active = some a → a.step = .spray n → s.quench.q3Owner = .spray →
        s.unsprayed.circuit.q3 = .closed ∧ s.unsprayed.q3Owner = .none := by
  refine ⟨fun hn => ?_, fun a n ha hs ho => ?_⟩
  · unfold State.unsprayed
    split
    · exact if_neg hn
    · rfl
  · unfold State.unsprayed
    simp only [ha, Option.map_some, hs, if_pos ho, and_self]

/-- The discard empties the trails and closes the rings, and leaves Q3 (R101). -/
theorem State.SameOrders.discarded {u t : State} (h : u.SameOrders t) {q : Quench}
    (hq : u.quench = q.discard false) :
    (t.quench.trailsEmpty = true ∧ t.quench.circuit.q1 = .closed ∧ t.quench.circuit.q2 = .closed) ∧
      t.quench.circuit.q3 = q.circuit.q3 ∧ t.quench.q3Owner = q.q3Owner ∧
      t.quench.floodTimer = q.floodTimer := by
  refine ⟨⟨?_, ?_, ?_⟩, ?_, ?_, ?_⟩
  · unfold Quench.trailsEmpty
    rw [h.trail, hq]
    rfl
  · rw [h.circuit, hq]; rfl
  · rw [h.circuit, hq]; rfl
  · rw [h.circuit, hq]; rfl
  · rw [h.owner, hq]; rfl
  · rw [h.flood, hq]; rfl

/-- A stop ordered at a latching trip: the carriage stands in IDLE and UNREFERENCED, and stops elsewhere (R141, R145). -/
theorem State.SameOrders.stops {s u t : State} (h : u.SameOrders t)
    (ht : u.travel = if s.seq.state.isRest then s.travel else s.travel.orderStopping) :
    if s.seq.state.isRest then
      t.travel.mode = s.travel.mode ∧ t.travel.plan = s.travel.plan ∧
        t.travel.planSpeed = s.travel.planSpeed
    else s.travel.mode ≠ .disabled → t.travel.mode = .stopping ∧ t.travel.targetSpeed = 0 := by
  cases hrest : s.seq.state.isRest
  · rw [hrest] at ht
    have travel : u.travel = s.travel.orderStopping := ht
    refine (if_neg (by decide)).mpr fun hm => ?_
    obtain ⟨mode, target⟩ := (s.travel.orders_spec hm).1
    exact ⟨h.mode.trans ((congrArg _ travel).trans mode), h.target.trans ((congrArg _ travel).trans target)⟩
  · rw [hrest] at ht
    have travel : u.travel = s.travel := ht
    exact ⟨h.mode.trans (congrArg _ travel), h.plan.trans (congrArg _ travel),
      h.planSpeed.trans (congrArg _ travel)⟩

/-- STOP (R141, R145). -/
theorem Responds.of_stop {s u t : State} (h : u.SameOrders t) (hq : u.quench = s.unsprayed.discard false)
    (hresp : u.trip.response = some .stop)
    (ht : u.travel = if s.seq.state.isRest then s.travel else s.travel.orderStopping)
    (ends : t.seq.state =
      if s.seq.state.isRest = true ∨ s.travel.still = 20 then .tripped else .tripping) :
    Responds s t .stop := by
  obtain ⟨discarded, q3, owner, flood⟩ := h.discarded hq
  obtain ⟨other, sprays⟩ := s.unsprayed_q3
  refine ⟨h.response.trans hresp, discarded, h.stops ht, ends, fun hn => ?_, fun a n ha hs ho => ?_⟩
  · rw [q3, owner, flood, other hn]
    exact ⟨rfl, rfl, rfl⟩
  · rw [q3, owner]
    exact sprays a n ha hs ho

/-- STOP_FLOOD (R142, R145). -/
theorem Responds.of_stopFlood {s u t : State} (h : u.SameOrders t)
    (hq : u.quench = (s.quench.floodOrder s.cfg.quench).discard false)
    (hresp : u.trip.response = some .stopFlood)
    (ht : u.travel = if s.seq.state.isRest then s.travel else s.travel.orderStopping)
    (ends : t.seq.state = if s.seq.state.isRest then .tripped else .tripping)
    (hstop : s.seq.state.isRest = false → u.trip.stoppedSeen = s.travel.stopped) :
    Responds s t .stopFlood := by
  obtain ⟨discarded, q3, owner, flood⟩ := h.discarded hq
  rw [Quench.floodOrder_eq] at q3 owner flood
  refine ⟨h.response.trans hresp, discarded, h.stops ht, ends, fun hr => ?_, owner, fun ho => ?_,
    fun ho => ?_⟩
  · rw [h.stopped, hstop hr]
    rfl
  · rw [q3, flood]
    dsimp only
    rw [if_pos ho, if_pos ho]
    exact ⟨rfl, rfl⟩
  · rw [q3, flood]
    dsimp only
    rw [if_neg ho, if_neg ho]
    exact ⟨CircuitState.opened_valve _ _ _, rfl⟩

/-- The orders of a RUNOUT response whose OFF requests find room: the requests, then stop or drain (R95, R140). -/
theorem State.tripMoving_runout (s : State) (src : Source) (ch : Option Channel)
    (hr : s.chosenResponse src = .runout)
    (room : (s.unsprayed.offRequests s.seq.passDir s.travel.position).trailFull = true →
      s.quench.trailFull = true) :
    let u := s.tripMoving src ch
    u.quench = s.unsprayed.offRequests s.seq.passDir s.travel.position ∧
      u.trip.response = some .runout ∧ u.trip.trailsSeen = u.quench.trailsEmpty ∧
      (u.quench.trailsEmpty = true → u.trip.stoppedSeen = s.travel.stopped) ∧
      u.travel = (if u.quench.trailsEmpty = true ∨ s.travel.mode = .target then s.travel.orderStopping
        else s.travel.orderDrain s.seq.passDir s.runoutSpeed) := by
  set b := s.tripBase src ch .runout .tripping
  have driven : s.tripMoving src ch =
      (b.offDriven.notify (.trip src ch)).notify (.state .tripping .trip (some src)) := by
    unfold State.tripMoving
    rw [hr]
    dsimp only
    rw [State.runoutResponse_eq b rfl rfl, if_neg]
    rintro ⟨h1, h2⟩
    have marks : b.quench.trailFull = s.quench.trailFull := s.unsprayed_sameRings.trailFull
    rw [marks, room h1] at h2
    cases h2
  have orders : b.offDriven.quench = s.unsprayed.offRequests s.seq.passDir s.travel.position ∧
      b.offDriven.trip.response = some .runout ∧
      b.offDriven.trip.trailsSeen = b.offDriven.quench.trailsEmpty ∧
      (b.offDriven.quench.trailsEmpty = true → b.offDriven.trip.stoppedSeen = s.travel.stopped) ∧
      b.offDriven.travel = (if b.offDriven.quench.trailsEmpty = true ∨ s.travel.mode = .target then
        s.travel.orderStopping else s.travel.orderDrain s.seq.passDir s.runoutSpeed) := by
    by_cases he : b.offAsked.quench.trailsEmpty = true
    · rw [show b.offDriven = _ from if_pos he]
      exact ⟨rfl, rfl, he.symm, fun _ => rfl, (if_pos (Or.inl he)).symm⟩
    · rw [show b.offDriven = _ from if_neg he]
      by_cases hm : s.travel.mode = .target
      · rw [if_pos (show b.travel.mode = .target from hm)]
        exact ⟨rfl, rfl, (Bool.eq_false_iff.2 he).symm, fun h => absurd h he,
          (if_pos (Or.inr hm)).symm⟩
      · rw [if_neg (show ¬b.travel.mode = .target from hm)]
        exact ⟨rfl, rfl, (Bool.eq_false_iff.2 he).symm, fun h => absurd h he,
          (if_neg (not_or.2 ⟨he, hm⟩)).symm⟩
  dsimp only
  rw [driven]
  exact orders

/-- With room and alternating trails the OFF requests are made, and end both rings OFF (R95, R96). -/
theorem State.offRequests_roomy (s : State) (ht : TrailInv s) (hroom : HasTrailRoom s) (d : Option Dir)
    (p : Int) :
    ((s.unsprayed.offRequests d p).trailFull = true → s.quench.trailFull = true) ∧
      (s.unsprayed.offRequests d p).lastState .q1 = false ∧
      (s.unsprayed.offRequests d p).lastState .q2 = false := by
  obtain ⟨room1, room2⟩ := hroom
  have rings := s.unsprayed_sameRings
  rw [← rings.trail] at room1 room2
  refine ⟨fun h => rings.trailFull ▸ Quench.requests_mark _ d false false p p room1 room2 h,
    Quench.offRequests_last _ d p room1 room2 fun r => ?_⟩
  rw [rings.trail, rings.valve r]
  exact (ht r).2

/-- RUNOUT, with room in alternating trails (R140, R145). -/
theorem State.latchingTrip_runsOut (s : State) (src : Source) (ch : Option Channel)
    (hr : s.chosenResponse src = .runout) (ht : TrailInv s) (hroom : HasTrailRoom s) :
    Responds s (s.latchingTrip src ch) .runout := by
  obtain ⟨trail, q1, q2⟩ := s.unsprayed_rings
  cases hrest : s.seq.state.isRest
  · obtain ⟨full, last1, last2⟩ := s.offRequests_roomy ht hroom s.seq.passDir s.travel.position
    obtain ⟨quench, response, seen, stopped, travel⟩ := s.tripMoving_runout src ch hr full
    have state : (s.tripMoving src ch).seq.state = .tripping := by
      rw [(s.tripMoving_ordered src ch).1.seq]; rfl
    have same := (s.tripMoving src ch).tripProgress_sameOrders
    have ends := (s.tripMoving src ch).tripProgress_state state
    rw [s.latchingTrip_moving src ch hrest]
    generalize (s.tripMoving src ch) = u at *
    generalize u.tripProgress = t at *
    have circuit : t.quench.circuit = s.unsprayed.circuit := by
      rw [same.circuit, quench]
      unfold Quench.offRequests
      rw [Quench.request_circuit, Quench.request_circuit]
    have last : ∀ r, t.quench.lastState r = u.quench.lastState r := fun r => by
      rw [Quench.lastState_eq, Quench.lastState_eq, same.trail, same.circuit]
    have empty : t.quench.trailsEmpty = u.quench.trailsEmpty := by
      unfold Quench.trailsEmpty
      rw [same.trail]
    have done : u.trip.done = (u.trip.trailsSeen && u.trip.stoppedSeen) := by
      unfold TripUnit.done
      rw [response]
    refine ⟨same.response.trans response, ?_, ?_, ?_, fun _ => ⟨?_, ?_, fun he => ?_, fun he => ?_⟩⟩
    · rw [circuit, q1]
    · rw [circuit, q2]
    · rw [hrest]; nofun
    · rw [last, quench]; exact last1
    · rw [last, quench]; exact last2
    · rw [empty] at he
      refine ⟨by rw [same.trails, seen, he], ?_, ?_⟩
      · refine same.stops (s := s) ?_
        rw [travel, if_pos (.inl he), hrest]
        rfl
      · rw [ends, done, seen, he, stopped he, hrest]
        simp [Travel.stopped]
    · rw [empty] at he
      have drains : ¬u.quench.trailsEmpty = true := by rw [he]; decide
      refine ⟨by rw [ends, done, seen, he]; rfl, fun hm => ?_, fun hm hd hp => ?_⟩
      · rw [same.mode, travel, if_pos (.inr hm)]
        exact (s.travel.orders_spec (by rw [hm]; decide)).1.1
      · obtain ⟨mode, dir, target⟩ := (s.travel.orders_spec hd).2 s.seq.passDir s.runoutSpeed hp
        rw [same.mode, same.dir, same.target, travel, if_neg (not_or.2 ⟨drains, hm⟩)]
        exact ⟨mode, dir, target⟩
  · have same := (s.tripResting src ch).enterTripped_sameOrders
    rw [s.latchingTrip_resting src ch hrest]
    have orders : (s.tripResting src ch).quench = s.unsprayed ∧ (s.tripResting src ch).travel = s.travel ∧
        (s.tripResting src ch).trip.response = some .runout := by
      unfold State.tripResting
      rw [hr]
      exact ⟨rfl, rfl, rfl⟩
    obtain ⟨quench, travel, response⟩ := orders
    refine ⟨same.response.trans response, ?_, ?_, fun _ => ⟨⟨?_, ?_, ?_⟩, ?_⟩, ?_⟩
    · rw [same.circuit, quench, q1]
    · rw [same.circuit, quench, q2]
    · rw [same.mode, travel]
    · rw [same.plan, travel]
    · rw [same.planSpeed, travel]
    · rw [same.trail, quench, trail]
    · rw [hrest]; nofun

/-- STOP and STOP_FLOOD at a latching trip (R141, R142, R145). -/
theorem State.latchingTrip_stops (s : State) (src : Source) (ch : Option Channel) :
    (s.chosenResponse src = .stop → Responds s (s.latchingTrip src ch) .stop) ∧
      (s.chosenResponse src = .stopFlood → Responds s (s.latchingTrip src ch) .stopFlood) := by
  cases hrest : s.seq.state.isRest
  · have state : (s.tripMoving src ch).seq.state = .tripping := by
      rw [(s.tripMoving_ordered src ch).1.seq]; rfl
    have same := (s.tripMoving src ch).tripProgress_sameOrders
    have ends := (s.tripMoving src ch).tripProgress_state state
    rw [s.latchingTrip_moving src ch hrest]
    refine ⟨fun hr => ?_, fun hr => ?_⟩
    · have done : (s.tripMoving src ch).trip.done = s.travel.stopped := by
        unfold State.tripMoving
        rw [hr]
        rfl
      refine Responds.of_stop same ?_ ?_ ?_ (by rw [ends, hrest, done]; simp [Travel.stopped])
      all_goals unfold State.tripMoving; rw [hr]
      · rfl
      · rfl
      · rw [hrest]; rfl
    · have done : (s.tripMoving src ch).trip.done = false := by
        unfold State.tripMoving
        rw [hr]
        exact Bool.and_false _
      refine Responds.of_stopFlood same ?_ ?_ ?_ (by rw [ends, hrest, done]) ?_
      all_goals unfold State.tripMoving; rw [hr]
      · rfl
      · rfl
      · rw [hrest]; rfl
      · exact fun _ => rfl
  · have same := (s.tripResting src ch).enterTripped_sameOrders
    have ends : (s.tripResting src ch).enterTripped.seq.state = .tripped := by rw [State.enterTripped_seq]
    rw [s.latchingTrip_resting src ch hrest]
    refine ⟨fun hr => Responds.of_stop same ?_ ?_ ?_ (by rw [ends, hrest]; rfl),
      fun hr => Responds.of_stopFlood same ?_ ?_ ?_ (by rw [ends, hrest]; rfl) (by rw [hrest]; nofun)⟩
    all_goals unfold State.tripResting; rw [hr]
    · rfl
    · rfl
    · rw [hrest]; rfl
    · rfl
    · rfl
    · rw [hrest]; rfl

/-- Every latching trip gives the orders of its response, with room in alternating trails (R137, R140 to R143, R145). -/
theorem State.latchingTrip_responds (s : State) (src : Source) (ch : Option Channel) (ht : TrailInv s)
    (hroom : HasTrailRoom s) : Responds s (s.latchingTrip src ch) (s.chosenResponse src) := by
  cases hr : s.chosenResponse src
  case runout => exact s.latchingTrip_runsOut src ch hr ht hroom
  case stop => exact (s.latchingTrip_stops src ch).1 hr
  case stopFlood => exact (s.latchingTrip_stops src ch).2 hr
  case halt =>
    obtain ⟨u, q, e, quench, travel, response, _⟩ := s.latchingTrip_halts src ch hr
    rw [e]
    refine ⟨?_, u.enterTripped_halted q s.travel quench travel⟩
    rw [State.enterTripped_trip]
    exact response

end Sys2Proof.Machine

namespace Sys2Proof.Machine

/-! ### Events that raise a TRIP-class source (R84, R85, R104, R105, R132, R134, R148) -/

/-- Like states by the Sequencer as it is. -/
theorem State.TripsAlike.of_seq {s u : State} (hseq : u.seq = s.seq)
    (hpower : u.power.pOut = s.power.pOut ∧ u.power.acc = s.power.acc ∧
      u.power.inhibit = s.power.inhibit)
    (htravel : u.travel.position = s.travel.position ∧ u.travel.speed = s.travel.speed)
    (hnumber : u.zones.openRec.map (·.number) = s.zones.openRec.map (·.number))
    (hrest : Keeps s u [.seq, .power, .travel, .quench, .trip, .zones, .inputs]) : s.TripsAlike u :=
  ⟨⟨s.seq.turnPhase, hseq⟩, hpower.1, hpower.2.1, hpower.2.2, htravel.1, htravel.2, hnumber, hrest⟩

/-- A raise from a like state with the latch clear: the latching trip, and the orders of its response from trails with room. -/
theorem State.raise_latches {s u : State} (a : s.TripsAlike u) (src : Source) (ch : Option Channel)
    (hc : u.classOf src = .trip) (hl : u.trip.latch = false) :
    Latched s (u.raise src ch) src ch ∧
      (TrailInv u → HasTrailRoom u → Responds u (u.raise src ch) (u.chosenResponse src)) := by
  rw [u.raise_latching src ch hc hl]
  exact ⟨(u.latchingTrip_latched src ch).of_alike a, u.latchingTrip_responds src ch⟩

/-- The part with the watch of a circuit LOW (R104, R105). -/
def State.lowFlow (s : State) (k : Circuit) : State :=
  s.onQuench fun q => { q with circuit := q.circuit.set k (q.circuit.get k).toLow }

/-- The loss of a flow is its raise, with the quench-short report of a ring before it (R107). -/
theorem State.flowLost_eq (s : State) (k : Circuit) :
    ∃ z, s.flowLost k = State.raise { s.lowFlow k with zones := z } k.flowLow ∧
      z.openRec.map (·.number) = s.zones.openRec.map (·.number) := by
  have ring : ∀ r : Ring, ∃ z, ((s.lowFlow k).quenchShort r).raise k.flowLow =
      State.raise { s.lowFlow k with zones := z } k.flowLow ∧
        z.openRec.map (·.number) = s.zones.openRec.map (·.number) := fun r => by
    obtain ⟨z, e, number⟩ := (s.lowFlow k).quenchShort_zones r
    exact ⟨z, congrArg (fun u : State => u.raise k.flowLow) e, number⟩
  cases k
  case q1 => exact ring .q1
  case q2 => exact ring .q2
  case q3 => exact ⟨s.zones, rfl, rfl⟩

/-- A watch that becomes LOW leaves valves and trails. -/
theorem State.lowFlow_rings (s : State) (k : Circuit) : s.quench.SameRings (s.lowFlow k).quench := by
  cases k <;> exact ⟨rfl, rfl, rfl⟩

theorem Quench.SameRings.trailInv {s u : State} (h : s.quench.SameRings u.quench) (ht : TrailInv s) :
    TrailInv u := by
  intro r
  rw [h.trail, h.valve r]
  exact ht r

/-- A lost flow in the TRIP class (R104, R105, R137). -/
theorem State.flowLost_latches (s : State) (k : Circuit) (hl : s.trip.latch = false)
    (hc : s.cfg.trip.classFlow.get k = .trip) :
    Latched s (s.flowLost k) k.flowLow none ∧
      (TrailInv s → HasTrailRoom s → Responds (s.lowFlow k) (s.flowLost k)
        (if s.cfg.trip.respFlow.get k = .runout ∧ s.seq.state = .runout then .stopFlood
          else s.cfg.trip.respFlow.get k)) := by
  obtain ⟨z, e, number⟩ := s.flowLost_eq k
  have alike : s.TripsAlike { s.lowFlow k with zones := z } :=
    .of_seq rfl ⟨rfl, rfl, rfl⟩ ⟨rfl, rfl⟩ number (by simp [Keeps, State.lowFlow])
  have cls : State.classOf { s.lowFlow k with zones := z } k.flowLow = .trip := by cases k <;> exact hc
  obtain ⟨latched, responds⟩ := State.raise_latches alike k.flowLow none cls hl
  rw [e]
  refine ⟨latched, fun ht hroom => ?_⟩
  have held := responds ((s.lowFlow_rings k).trailInv ht) hroom
  cases k <;> exact held

/-- The emergency stop and the encoder fault halt the machine (R61, R134, R143 to R145). -/
theorem State.latchingTrip_halted (s : State) (src : Source) (ch : Option Channel)
    (hr : s.chosenResponse src = .halt) :
    let t := s.latchingTrip src ch
    Halted t ∧ t.inputs = s.inputs ∧ t.zones.openRec = none ∧ t.seq.passDir = none ∧
      t.seq.scanClock = none ∧ t.store.inUse = none ∧ t.travel.referenced = s.travel.referenced := by
  obtain ⟨u, q, e, quench, travel, _, inputs⟩ := s.latchingTrip_halts src ch hr
  dsimp only
  rw [e]
  refine ⟨u.enterTripped_halted q s.travel quench travel, ?_, ?_, ?_, ?_, ?_, ?_⟩
  · rw [State.enterTripped_inputs, inputs]
  · rw [State.enterTripped_zones]
    exact (u.zones.close_count _ _ _).1
  · rw [State.enterTripped_seq]
  · rw [State.enterTripped_seq]
  · rw [State.enterTripped_store]
  · rw [State.enterTripped_travel, travel, Travel.setSpindle_eq, Travel.setSpindle_eq]
    rfl

/-- The orders of a response of the configuration, from alternating trails with room (R137, R145). -/
abbrev State.GivesOrders (s u t : State) (r : Response) : Prop :=
  TrailInv s → HasTrailRoom s →
    Responds u t (if r = .runout ∧ s.seq.state = .runout then .stopFlood else r)

section
variable {s : State} (hl : s.trip.latch = false)
include hl

theorem exec_forceTrip_latches {tag : Byte} (taken : Taken s tag) :
    ∃ t, exec (.forceTrip tag) s = .next t ∧ Latched (s.replied 0x8C#8 tag .ok []) t .forced none ∧
      s.GivesOrders s t s.cfg.trip.respForced := by
  have alike : State.TripsAlike (s.replied 0x8C#8 tag .ok []) (s.replied 0x8C#8 tag .ok []) :=
    .of_seq rfl ⟨rfl, rfl, rfl⟩ ⟨rfl, rfl⟩ rfl (by simp [Keeps])
  exact ⟨_, exec_forceTrip_taken taken, State.raise_latches alike .forced none rfl hl⟩

theorem exec_faultInput_latches (hf : s.inputs.fault = false) :
    ∃ t, exec (.faultInputChange true) s = .next t ∧ Latched s t .inverterFault none ∧
      s.GivesOrders s t s.cfg.trip.respInvFault := by
  have alike : s.TripsAlike (s.onInputs ({ · with fault := true })) :=
    .of_seq rfl ⟨rfl, rfl, rfl⟩ ⟨rfl, rfl⟩ rfl (by simp [Keeps])
  have raised : s.faultChange true = (s.onInputs ({ · with fault := true })).raise .inverterFault := by
    unfold State.faultChange
    rw [hf]
    rfl
  exact ⟨_, congrArg Host.Outcome.next raised, State.raise_latches alike .inverterFault none rfl hl⟩

theorem exec_readyInput_latches (he : s.power.enable = true) (hs : s.power.readySeen = true)
    (hr : s.inputs.ready = true) :
    ∃ t, exec (.readyInputChange false) s = .next t ∧ Latched s t .inverterLost none ∧
      s.GivesOrders s t s.cfg.trip.respInvLost := by
  let u := (s.onInputs ({ · with ready := false })).onPower fun p =>
    { p with readySeen := p.readySeen || (p.enable && false) }
  have alike : s.TripsAlike u :=
    .of_seq rfl ⟨rfl, rfl, rfl⟩ ⟨rfl, rfl⟩ rfl (by simp [Keeps, u])
  have raised : s.readyChange false = u.raise .inverterLost := by
    have before : s.inverterLost = false := by simp [State.inverterLost, hr]
    have lost : u.inverterLost = true := by simp [State.inverterLost, u, he, hs]
    show u.raiseIf s.inverterLost u.inverterLost .inverterLost = _
    rw [before, lost]
    rfl
  exact ⟨_, congrArg Host.Outcome.next raised, State.raise_latches alike .inverterLost none rfl hl⟩

theorem exec_coilWaterTimer_latches (ht : s.trip.coilWaterTimer = true) (hw : s.trip.coilWaterLow = false) :
    ∃ t, exec .coilWaterTimerExpiry s = .next t ∧ Latched s t .coilWaterLow none ∧
      s.GivesOrders s t s.cfg.trip.respCoilWater := by
  have alike : s.TripsAlike (s.onTrip ({ · with coilWaterTimer := false, coilWaterLow := true })) :=
    .of_seq rfl ⟨rfl, rfl, rfl⟩ ⟨rfl, rfl⟩ rfl (by simp [Keeps])
  have raised : s.coilWaterExpired =
      (s.onTrip ({ · with coilWaterTimer := false, coilWaterLow := true })).raise .coilWaterLow := by
    unfold State.coilWaterExpired
    rw [if_pos ht, hw]
    rfl
  exact ⟨_, congrArg Host.Outcome.next raised, State.raise_latches alike .coilWaterLow none rfl hl⟩

theorem exec_lowCount_latches (hc : s.travel.lowCount = 100) (hs : s.travel.spindleLow = false) :
    ∃ t, exec .lowCountReached s = .next t ∧ Latched s t .spindleLow none ∧
      s.GivesOrders s t s.cfg.trip.respSpindle := by
  have alike : s.TripsAlike (s.onTravel ({ · with spindleLow := true })) :=
    .of_seq rfl ⟨rfl, rfl, rfl⟩ ⟨rfl, rfl⟩ rfl (by simp [Keeps])
  have raised : s.lowCountReached = (s.onTravel ({ · with spindleLow := true })).raise .spindleLow :=
    if_pos ⟨hc, hs⟩
  exact ⟨_, congrArg Host.Outcome.next raised, State.raise_latches alike .spindleLow none rfl hl⟩

/-- The two expiries by which a flow is lost (R104, R105). -/
theorem exec_flowTimers_latch (k : Circuit) (hc : s.cfg.trip.classFlow.get k = .trip) :
    ((s.quench.circuit.get k).watch = .proving → (s.quench.circuit.get k).proving.isSome = true →
      ∃ t, exec (.provingTimerExpiry k) s = .next t ∧ Latched s t k.flowLow none ∧
        s.GivesOrders (s.lowFlow k) t (s.cfg.trip.respFlow.get k)) ∧
    ((s.quench.circuit.get k).watch = .proved → (s.quench.circuit.get k).dropout.isSome = true →
      ∃ t, exec (.dropoutTimerExpiry k) s = .next t ∧ Latched s t k.flowLow none ∧
        s.GivesOrders (s.lowFlow k) t (s.cfg.trip.respFlow.get k)) := by
  refine ⟨fun hw ht => ⟨_, congrArg Host.Outcome.next ?_, s.flowLost_latches k hl hc⟩,
    fun hw ht => ⟨_, congrArg Host.Outcome.next ?_, s.flowLost_latches k hl hc⟩⟩
  · unfold State.provingExpiry
    simp [hw, ht]
  · unfold State.dropoutExpiry
    simp [hw, ht]

theorem exec_emergencyStop_halts (he : s.inputs.estop = false) :
    ∃ t, exec (.emergencyStopInput true) s = .next t ∧ Latched s t .estop none ∧ Halted t ∧
      t.inputs = { s.inputs with estop := true } ∧ t.zones.openRec = none ∧
      t.seq.passDir = none ∧ t.seq.scanClock = none ∧ t.store.inUse = none := by
  let u := s.onInputs ({ · with estop := true })
  have alike : s.TripsAlike u := .of_seq rfl ⟨rfl, rfl, rfl⟩ ⟨rfl, rfl⟩ rfl (by simp [Keeps, u])
  have raised : s.estopChange true = u.latchingTrip .estop none := by
    unfold State.estopChange
    rw [he]
    exact u.raise_latching .estop none rfl hl
  obtain ⟨halted, inputs, opened, dir, clock, used, _⟩ := u.latchingTrip_halted .estop none rfl
  exact ⟨_, congrArg Host.Outcome.next raised, (u.latchingTrip_latched _ _).of_alike alike, halted,
    inputs, opened, dir, clock, used⟩

theorem exec_encoderFault_halts (he : s.travel.encoderFault = false) :
    ∃ t, exec (.encoderFaultInput true) s = .next t ∧ Latched s t .encoderFault none ∧ Halted t ∧
      t.inputs = { s.inputs with encoder := true } ∧ t.travel.referenced = false ∧
      t.zones.openRec = none := by
  let u := (s.onInputs ({ · with encoder := true })).onTravel fun t =>
    { t with encoderFault := true, referenced := t.referenced && (!true || t.encoderFault) }
  have alike : s.TripsAlike u := .of_seq rfl ⟨rfl, rfl, rfl⟩ ⟨rfl, rfl⟩ rfl (by simp [Keeps, u])
  have raised : s.encoderChange true = u.latchingTrip .encoderFault none := by
    show u.raiseIf s.travel.encoderFault true .encoderFault = _
    rw [he]
    exact u.raise_latching .encoderFault none rfl hl
  obtain ⟨halted, inputs, opened, _, _, _, referenced⟩ := u.latchingTrip_halted .encoderFault none rfl
  refine ⟨_, congrArg Host.Outcome.next raised, (u.latchingTrip_latched _ _).of_alike alike, halted,
    inputs, referenced.trans ?_, opened⟩
  simp [u, he]

end

end Sys2Proof.Machine

namespace Sys2Proof.Machine

/-! ### A latching trip stands through the rest of its sample (R130, R138, R146, R147) -/

/-- A latching trip taken from `s` stands, and in TRIPPING the record of the scan is still open. -/
structure Tripped (s t : State) (src : Source) (ch : Option Channel) : Prop where
  latched : Latched s t src ch
  number : t.seq.state = .tripping →
    t.zones.openRec.map (·.number) = s.zones.openRec.map (·.number)

namespace Tripped

theorem of_latchingTrip (s : State) (src : Source) (ch : Option Channel) :
    Tripped s (s.latchingTrip src ch) src ch := by
  refine ⟨s.latchingTrip_latched src ch, fun hs => ?_⟩
  obtain ⟨u, st, ordered, ⟨_, e⟩ | e⟩ := s.latchingTrip_ordered src ch
  · rw [e, ordered.zones]
    exact s.zones.onOpen_number _ fun _ => rfl
  · rw [e, State.enterTripped_seq] at hs
    cases hs

theorem of_alike {s u t : State} {src : Source} {ch : Option Channel} (h : Tripped u t src ch)
    (a : s.TripsAlike u) : Tripped s t src ch :=
  ⟨h.latched.of_alike a, fun hs => (h.number hs).trans a.number⟩

/-- What may change under a trip: orders to carriage and valves, later causes, the progress of the response, flags of the record. -/
theorem of_same {s t v : State} {src : Source} {ch : Option Channel} (h : Tripped s t src ch)
    (hseq : v.seq = t.seq) (hpower : v.power = t.power ∨ v.power = t.power.off)
    (hlatch : v.trip.latch = t.trip.latch)
    (hrecord : v.trip.record = t.trip.record ∨
      ∃ x, v.trip.record = t.trip.record.map (·.further x))
    (htravel : v.travel.position = t.travel.position ∧ v.travel.speed = t.travel.speed)
    (hnumber : v.zones.openRec.map (·.number) = t.zones.openRec.map (·.number))
    (hrest : Keeps t v [.seq, .power, .trip, .travel, .quench, .zones]) : Tripped s v src ch := by
  obtain ⟨hpending, hcfg, _, _, _, _, hmeas, _, _, hstore, hlink, _⟩ := hrest
  simp only [List.mem_cons, List.not_mem_nil, or_false, reduceCtorEq, false_or] at hcfg hmeas hstore hlink
  obtain ⟨⟨latch, ⟨r, hr, tells⟩, entered, off, acc, inhibit, flushed, trimT, trimS, shadow, count, last,
    position, speed, meas, cfg, pages, pending, link⟩, number⟩ := h
  have power : v.power.isOff ∧ v.power.acc = t.power.acc ∧ v.power.inhibit = t.power.inhibit := by
    rcases hpower with e | e <;> rw [e]
    · exact ⟨off, rfl, rfl⟩
    · exact ⟨⟨rfl, rfl, rfl⟩, rfl, rfl⟩
  have record : ∃ r, v.trip.record = some r ∧ r.tells s src ch := by
    rcases hrecord with e | ⟨x, e⟩ <;> rw [e, hr]
    · exact ⟨r, rfl, tells⟩
    · exact ⟨r.further x, rfl, tells⟩
  obtain ⟨off', acc', inhibit'⟩ := power
  refine ⟨⟨hlatch.trans latch, record, ?_, off', acc'.trans acc, inhibit'.trans inhibit, ?_⟩, ?_⟩
  · rw [hseq]; exact entered
  · rw [hseq]
    exact ⟨flushed, trimT, trimS, shadow, count, last, htravel.1.trans position, htravel.2.trans speed,
      hmeas.trans meas, hcfg.trans cfg, (congrArg Store.pages hstore).trans pages, hpending.trans pending,
      hlink.trans link⟩
  · rw [hseq]
    exact fun hs => hnumber.trans (number hs)

theorem onTravel {s t : State} {src : Source} {ch : Option Channel} (h : Tripped s t src ch)
    (f : Travel → Travel)
    (hf : (f t.travel).position = t.travel.position ∧ (f t.travel).speed = t.travel.speed) :
    Tripped s (t.onTravel f) src ch :=
  h.of_same rfl (.inl rfl) rfl (.inl rfl) hf rfl (by simp [Keeps])

/-- TRIPPING ends with the notices of TRIPPED and of the record (R144). -/
theorem enterTripped {s t : State} {src : Source} {ch : Option Channel} (h : Tripped s t src ch)
    (hs : t.seq.state = .tripping) : Tripped s t.enterTripped src ch := by
  have open' := h.number hs
  obtain ⟨⟨latch, ⟨r, hr, tells⟩, entered, off, acc, inhibit, flushed, trimT, trimS, shadow, count, last,
    position, speed, meas, cfg, pages, pending, link⟩, number⟩ := h
  obtain ⟨cause, _⟩ := id tells
  have measured := t.readings_enterTripped
  refine ⟨⟨?_, ⟨r, ?_, tells⟩, ?_, ?_, ?_, ?_, ?_⟩, fun hn => ?_⟩
  · rw [State.enterTripped_trip]; exact latch
  · rw [State.enterTripped_trip]; exact hr
  · rw [State.enterTripped_seq]
    split
    · rfl
    · exact .inr rfl
  · rw [State.enterTripped_power]; exact off
  · rw [State.enterTripped_power]; exact acc
  · rw [State.enterTripped_power]; exact inhibit
  · simp only [State.enterTripped_seq, State.enterTripped_meas, State.enterTripped_cfg,
      State.enterTripped_store, State.enterTripped_pending]
    refine ⟨flushed, trimT, trimS, shadow, count, last, (congrArg Readings.position measured).trans position,
      (congrArg Readings.speed measured).trans speed, meas, cfg, pages, pending, ?_⟩
    have told : t.link = s.tripTold src ch false := by rw [link, hs]; rfl
    have first : t.firstCause = some src := by simp [State.firstCause, hr, cause]
    rw [State.enterTripped_link, first, told]
    unfold State.tripTold
    cases hu : t.zones.openRec <;> cases hz : s.zones.openRec
    case none.none => rfl
    case some.some a b =>
      rw [hu, hz] at open'
      have same : a.number = b.number := by simpa using open'
      dsimp only
      rw [same]
      rfl
    all_goals
      rw [hu, hz] at open'
      cases open'
  · rw [State.enterTripped_seq] at hn
    cases hn

theorem tripProgress {s t : State} {src : Source} {ch : Option Channel} (h : Tripped s t src ch) :
    Tripped s t.tripProgress src ch := by
  rcases t.tripProgress_cases with e | ⟨hs, _, e⟩ <;> rw [e]
  · exact h
  · exact h.enterTripped hs

theorem furtherTrip {s t : State} {src : Source} {ch : Option Channel} (h : Tripped s t src ch)
    (src' : Source) : Tripped s (t.furtherTrip src') src ch := by
  have halts := t.travel.orderDisabled.readings_setSpindle 0
  have stops := t.travel.readings_orderStopping
  rcases t.furtherTrip_cases src' with e | ⟨_, e | e⟩ | ⟨_, e⟩ <;> rw [e]
  · exact h.of_same rfl (.inl rfl) rfl (.inr ⟨src', rfl⟩) ⟨rfl, rfl⟩ rfl (by simp [Keeps])
  · exact tripProgress (h.of_same rfl (.inr rfl) rfl (.inr ⟨src', rfl⟩)
      ⟨congrArg Readings.position halts, congrArg Readings.speed halts⟩ rfl (by simp [Keeps, State.haltResponse]))
  · exact tripProgress (h.of_same rfl (.inr rfl) rfl (.inr ⟨src', rfl⟩)
      ⟨congrArg Readings.position stops, congrArg Readings.speed stops⟩ rfl (by simp [Keeps, State.stopFloodResponse]))
  · exact h.of_same rfl (.inl rfl) rfl (.inr ⟨src', rfl⟩)
      ⟨congrArg Readings.position halts, congrArg Readings.speed halts⟩ rfl (by simp [Keeps])

theorem raise {s t : State} {src : Source} {ch : Option Channel} (h : Tripped s t src ch) (src' : Source)
    (ch' : Option Channel) : Tripped s (t.raise src' ch') src ch := by
  unfold State.raise
  split
  · exact h.of_same rfl (.inl rfl) rfl (.inl rfl) ⟨rfl, rfl⟩
      (t.zones.onOpen_number _ fun r => by unfold OpenRecord.warnFlag; split <;> rfl) (by simp [Keeps])
  · exact h
  · have latch : t.trip.latch = true := h.latched.1
    rw [if_pos latch]
    exact h.furtherTrip src'

/-- A later test of the sample. -/
theorem test {s t : State} {src : Source} {ch : Option Channel} (h : Tripped s t src ch)
    (f : Travel → Travel) (was now : Bool) (src' : Source)
    (hf : (f t.travel).position = t.travel.position ∧ (f t.travel).speed = t.travel.speed) :
    Tripped s ((t.onTravel f).raiseIf was now src' none) src ch := by
  have moved := h.onTravel f hf
  unfold State.raiseIf
  split
  · exact moved.raise src' none
  · exact moved

/-- The rest of a sample behind a trip of its tests: nothing is Active (R48, R139). -/
theorem sampleEnd {s t : State} {src : Source} {ch : Option Channel} (h : Tripped s t src ch)
    (r : Reading) (c : MachineCfg) :
    Tripped s ((t.modeTested r).onTravel (·.drive c)) src ch := by
  have active : t.seq.active = none := by
    obtain ⟨_, _, _, _, _, _, ⟨_, _, active, _⟩, _⟩ := h.latched
    exact active
  obtain ⟨x, e, readings, _⟩ := t.modeTested_ordered r fun a d ha => by rw [active] at ha; cases ha
  have drove := (x.drive_kept c).1.trans readings
  rw [e]
  exact h.of_same rfl (.inl rfl) rfl (.inl rfl)
    ⟨congrArg Readings.position drove, congrArg Readings.speed drove⟩ rfl (by simp [Keeps])

end Tripped

/-! ### The limit tests of a sample that trip (R48, R54, R59, R60) -/

/-- OVERTRAVEL is newly present at a sample that measured `x` with these switch levels (R59, R60). -/
def State.overtravels (s : State) (x : Travel) (low high : Bool) : Prop :=
  let c := s.cfg.machine
  let out := s.travel.planSpeed < 0 ∨ x.speed < -5
  let up := 0 < s.travel.planSpeed ∨ 5 < x.speed
  (s.travel.overSoft = false ∧ s.travel.referenced = true ∧
      (x.position < c.softLow ∧ out ∨ c.softHigh < x.position ∧ up)) ∨
    (s.travel.overLow = false ∧ low = true ∧ out) ∨ (s.travel.overHigh = false ∧ high = true ∧ up)

/-- The following error is newly present at a sample that measured `x` (R54). -/
def State.goesAstray (s : State) (x : Travel) : Prop :=
  s.travel.followingError = false ∧ s.travel.driveEnable = true ∧
    s.cfg.machine.feLimit < (s.travel.plan.tdiv 1000 - x.position).natAbs

theorem State.TripsAlike.onTravel {s u : State} (a : s.TripsAlike u) (f : Travel → Travel)
    (hf : (f u.travel).position = u.travel.position ∧ (f u.travel).speed = u.travel.speed) :
    s.TripsAlike (u.onTravel f) := by
  obtain ⟨hpending, hcfg, hseq, htravel, hpower, hquench, hmeas, htrip, hzones, hstore, hlink, hinputs⟩ :=
    a.rest
  exact ⟨a.seq, a.output, a.acc, a.inhibit, hf.1.trans a.position, hf.2.trans a.speed, a.number,
    hpending, hcfg, hseq, by simp, hpower, hquench, hmeas, htrip, hzones, hstore, hlink, hinputs⟩

/-- A test whose condition is newly present, the latch clear. -/
theorem Tripped.of_test {s u : State} (a : s.TripsAlike u) (hl : u.trip.latch = false) (f : Travel → Travel)
    (hf : (f u.travel).position = u.travel.position ∧ (f u.travel).speed = u.travel.speed)
    {was now : Bool} (src : Source) (hwas : was = false) (hnow : now = true)
    (hc : u.classOf src = .trip) : Tripped s ((u.onTravel f).raiseIf was now src none) src none := by
  subst hwas hnow
  rw [State.raiseIf_new, (u.onTravel f).raise_latching src none hc hl]
  exact (Tripped.of_latchingTrip _ src none).of_alike (a.onTravel f hf)

/-- What the tests of a sample read, beside their own conditions, is what the sample measured, and nothing has tripped. -/
structure State.Untripped (s : State) (x : Travel) (w v : State) : Prop where
  alike : w.TripsAlike v
  latch : v.trip.latch = false
  cfg : v.cfg = s.cfg
  inputs : v.inputs = s.inputs
  position : v.travel.position = x.position
  speed : v.travel.speed = x.speed
  plan : v.travel.plan = s.travel.plan
  planSpeed : v.travel.planSpeed = s.travel.planSpeed
  enable : v.travel.driveEnable = s.travel.driveEnable
  referenced : v.travel.referenced = s.travel.referenced

namespace State.Untripped

variable {s w v : State} {x : Travel}

/-- A test trips exactly on a condition newly present. -/
theorem test (m : s.Untripped x w v) (f : Travel → Travel) {was now : Bool} (src : Source)
    (hc : v.classOf src = .trip)
    (hf : (f v.travel).position = v.travel.position ∧ (f v.travel).speed = v.travel.speed ∧
      (f v.travel).plan = v.travel.plan ∧ (f v.travel).planSpeed = v.travel.planSpeed ∧
      (f v.travel).driveEnable = v.travel.driveEnable ∧ (f v.travel).referenced = v.travel.referenced) :
    (was = false ∧ now = true → Tripped w ((v.onTravel f).raiseIf was now src none) src none) ∧
      (¬(was = false ∧ now = true) → s.Untripped x w ((v.onTravel f).raiseIf was now src none)) := by
  obtain ⟨position, speed, plan, planSpeed, enable, referenced⟩ := hf
  refine ⟨fun ⟨hwas, hnow⟩ => .of_test m.alike m.latch f ⟨position, speed⟩ src hwas hnow hc, fun hn => ?_⟩
  rw [State.raiseIf_none _ _ _ _ _ fun h => by
    cases was
    · exact absurd ⟨rfl, h⟩ hn
    · rfl]
  exact ⟨m.alike.onTravel f ⟨position, speed⟩, m.latch, m.cfg, m.inputs, position.trans m.position,
    speed.trans m.speed, plan.trans m.plan, planSpeed.trans m.planSpeed, enable.trans m.enable,
    referenced.trans m.referenced⟩

theorem reverse_iff (m : s.Untripped x w v) :
    v.travel.movesReverse = true ↔ s.travel.planSpeed < 0 ∨ x.speed < -5 := by
  simp [Travel.movesReverse, m.planSpeed, m.speed]

theorem forward_iff (m : s.Untripped x w v) :
    v.travel.movesForward = true ↔ 0 < s.travel.planSpeed ∨ 5 < x.speed := by
  simp [Travel.movesForward, m.planSpeed, m.speed]

theorem soft_iff (m : s.Untripped x w v) :
    v.travel.softViolation v.cfg.machine = true ↔ s.travel.referenced = true ∧
      (x.position < s.cfg.machine.softLow ∧ (s.travel.planSpeed < 0 ∨ x.speed < -5) ∨
        s.cfg.machine.softHigh < x.position ∧ (0 < s.travel.planSpeed ∨ 5 < x.speed)) := by
  simp [Travel.softViolation, m.referenced, m.position, m.cfg, m.reverse_iff, m.forward_iff]

theorem follow_iff (m : s.Untripped x w v) :
    v.travel.followViolation v.cfg.machine = true ↔ s.travel.driveEnable = true ∧
      s.cfg.machine.feLimit < (s.travel.plan.tdiv 1000 - x.position).natAbs := by
  simp [Travel.followViolation, Travel.followError, truncDiv, m.enable, m.plan, m.position, m.cfg]

end State.Untripped

/-- The three tests of the limits: OVERTRAVEL newly present trips, and otherwise nothing has (R59, R60). -/
theorem State.Untripped.overtravel {s w u : State} {x : Travel} (m : s.Untripped x w u) (low high : Bool)
    (own : u.travel.overSoft = s.travel.overSoft ∧ u.travel.overLow = s.travel.overLow ∧
      u.travel.overHigh = s.travel.overHigh) :
    let v := (u.testSoft.testLow low).testHigh high
    (s.overtravels x low high → Tripped w v .overtravel none) ∧
      (¬s.overtravels x low high → s.Untripped x w v) := by
  dsimp only
  obtain ⟨wasSoft, wasLow, wasHigh⟩ := own
  obtain ⟨softTrips, softPasses⟩ : (_ → Tripped w u.testSoft .overtravel none) ∧ (_ → s.Untripped x w u.testSoft) :=
    m.test _ .overtravel rfl ⟨rfl, rfl, rfl, rfl, rfl, rfl⟩
  have read1 := u.readings_tests.1
  have later : ∀ y : State, Tripped w y .overtravel none → Tripped w (y.testHigh high) .overtravel none :=
    fun y h => h.test _ _ _ _ ⟨rfl, rfl⟩
  rw [m.soft_iff, wasSoft] at softTrips softPasses
  by_cases soft : s.travel.overSoft = false ∧ s.travel.referenced = true ∧
      (x.position < s.cfg.machine.softLow ∧ (s.travel.planSpeed < 0 ∨ x.speed < -5) ∨
        s.cfg.machine.softHigh < x.position ∧ (0 < s.travel.planSpeed ∨ 5 < x.speed))
  · have trip : Tripped w (u.testSoft.testLow low) .overtravel none := (softTrips soft).test _ _ _ _ ⟨rfl, rfl⟩
    exact ⟨fun _ => later _ trip, fun hn => absurd (.inl soft) hn⟩
  have m1 := softPasses soft
  have wasLow1 : u.testSoft.travel.overLow = s.travel.overLow :=
    (congrArg Readings.low read1).trans wasLow
  have wasHigh1 : u.testSoft.travel.overHigh = s.travel.overHigh :=
    (congrArg Readings.high read1).trans wasHigh
  generalize u.testSoft = u1 at *
  obtain ⟨lowTrips, lowPasses⟩ : (_ → Tripped w (u1.testLow low) .overtravel none) ∧
      (_ → s.Untripped x w (u1.testLow low)) :=
    m1.test _ .overtravel rfl ⟨rfl, rfl, rfl, rfl, rfl, rfl⟩
  rw [Bool.and_eq_true, m1.reverse_iff, wasLow1] at lowTrips lowPasses
  by_cases newLow : s.travel.overLow = false ∧ low = true ∧ (s.travel.planSpeed < 0 ∨ x.speed < -5)
  · exact ⟨fun _ => later _ (lowTrips newLow), fun hn => absurd (.inr (.inl newLow)) hn⟩
  have m2 := lowPasses newLow
  have wasHigh2 : (u1.testLow low).travel.overHigh = s.travel.overHigh :=
    (congrArg Readings.high (u1.readings_tests.2.1 low)).trans wasHigh1
  generalize u1.testLow low = u2 at *
  obtain ⟨highTrips, highPasses⟩ : (_ → Tripped w (u2.testHigh high) .overtravel none) ∧
      (_ → s.Untripped x w (u2.testHigh high)) :=
    m2.test _ .overtravel rfl ⟨rfl, rfl, rfl, rfl, rfl, rfl⟩
  rw [Bool.and_eq_true, m2.forward_iff, wasHigh2] at highTrips highPasses
  refine ⟨?_, fun hn => highPasses fun h => hn (.inr (.inr h))⟩
  rintro (h | h | h)
  · exact absurd h soft
  · exact absurd h newLow
  · exact highTrips h

/-- The tests of a sample in their order: the first condition newly present trips, and its trip stands (R48, R130). -/
theorem State.Untripped.testLimits {s w u : State} {x : Travel} (m : s.Untripped x w u) (r : Reading)
    (own : u.travel.readings.soft = s.travel.overSoft ∧ u.travel.readings.low = s.travel.overLow ∧
      u.travel.readings.high = s.travel.overHigh ∧ u.travel.readings.follow = s.travel.followingError) :
    (s.overtravels x r.lowSwitch r.highSwitch → Tripped w (u.testLimits r) .overtravel none) ∧
      (¬s.overtravels x r.lowSwitch r.highSwitch → s.inputs.encoder = false → s.goesAstray x →
        Tripped w (u.testLimits r) .followingError none) := by
  obtain ⟨wasSoft, wasLow, wasHigh, wasFollow⟩ := own
  obtain ⟨trips, passes⟩ := m.overtravel r.lowSwitch r.highSwitch ⟨wasSoft, wasLow, wasHigh⟩
  have wasFollow' : ((u.testSoft.testLow r.lowSwitch).testHigh r.highSwitch).travel.readings.follow =
      s.travel.followingError := by
    rw [(State.readings_tests _).2.2.1, (State.readings_tests _).2.1, (State.readings_tests _).1]
    exact wasFollow
  unfold State.testLimits
  rw [m.inputs]
  generalize (u.testSoft.testLow r.lowSwitch).testHigh r.highSwitch = v at *
  refine ⟨fun h => ?_, fun hn he astray => ?_⟩
  · exact ((trips h).test _ _ _ _ ⟨rfl, rfl⟩).test _ _ _ _ ⟨rfl, rfl⟩
  · have m' := passes hn
    rw [he]
    have m4 : s.Untripped x w (v.testEncoder false) :=
      (m'.test _ .encoderFault rfl ⟨rfl, rfl, rfl, rfl, rfl, by simp⟩).2 (by simp)
    have follow4 : (v.testEncoder false).travel.followingError = false :=
      (congrArg Readings.follow (v.readings_tests.2.2.2.1 false)).trans (wasFollow'.trans astray.1)
    exact (m4.test _ .followingError rfl ⟨rfl, rfl, rfl, rfl, rfl, rfl⟩).1 ⟨follow4, m4.follow_iff.2 astray.2⟩

end Sys2Proof.Machine

namespace Sys2Proof.Machine

/-- The part with position and speed as a sample measured them: what a trip of that sample is recorded from (R138). -/
def State.recordedAt (s : State) (x : Travel) : State :=
  { s with travel := { s.travel with position := x.position, speed := x.speed } }

/-- A sample's own part leaves what a trip records and its tests read (R48, R138). -/
theorem State.sampledPart_untripped (s : State) (r : Reading) (hl : s.trip.latch = false) :
    s.Untripped (s.travel.measure r.counts) (s.recordedAt (s.travel.measure r.counts)) (s.sampledPart r) ∧
      (s.sampledPart r).travel.readings = (s.travel.measure r.counts).readings := by
  obtain ⟨z, t, e, number, readings, plan, planSpeed, enable, referenced, _⟩ := s.sampledPart_spec r
  have position := congrArg Readings.position readings
  have speed := congrArg Readings.speed readings
  rw [e]
  refine ⟨⟨⟨?_, rfl, rfl, rfl, position, speed, number, by simp [Keeps, State.recordedAt]⟩,
    ?_, rfl, rfl, position, speed, plan, planSpeed, enable, referenced⟩, readings⟩
  · dsimp only
    split
    · exact ⟨.stopping, rfl⟩
    · exact ⟨s.seq.turnPhase, rfl⟩
  · dsimp only
    split <;> exact hl

/-- A sample that finds OVERTRAVEL or else the following error newly present trips, and the trip stands at its end (R54, R59, R60). -/
theorem State.positionSample_trips (s : State) (r : Reading) (hl : s.trip.latch = false) :
    let x := s.travel.measure r.counts
    let t := s.positionSample r
    (t.travel.position = x.position ∧ t.travel.speed = x.speed) ∧
      (s.overtravels x r.lowSwitch r.highSwitch → Tripped (s.recordedAt x) t .overtravel none) ∧
      (¬s.overtravels x r.lowSwitch r.highSwitch → s.inputs.encoder = false → s.goesAstray x →
        Tripped (s.recordedAt x) t .followingError none) := by
  intro x t
  obtain ⟨untripped, readings⟩ := s.sampledPart_untripped r hl
  have tested := s.readings_positionSample r
  unfold State.testLimits at tested
  simp only [State.readings_tests, readings] at tested
  obtain ⟨passed, astray⟩ := untripped.testLimits r
    ⟨congrArg Readings.soft readings, congrArg Readings.low readings, congrArg Readings.high readings,
      congrArg Readings.follow readings⟩
  exact ⟨⟨congrArg Readings.position tested, congrArg Readings.speed tested⟩,
    fun h => (passed h).sampleEnd r _, fun hn he h => (astray hn he h).sampleEnd r _⟩

/-- Settles O34: each event is a raise from a like state with the latch clear, and a trip of a sample stands at its end. -/
theorem tripSourcesLatch : Obligations.TripSourcesLatch := by
  refine ⟨fun s hl => ?_, fun s counts rpm ref low high hl => ?_, fun s hl => ?_⟩
  · exact ⟨fun tag => exec_forceTrip_latches hl, exec_faultInput_latches hl, exec_readyInput_latches hl,
      exec_coilWaterTimer_latches hl, exec_lowCount_latches hl, exec_flowTimers_latch hl⟩
  · obtain ⟨⟨position, speed⟩, passed, astray⟩ := s.positionSample_trips ⟨counts, rpm, ref, low, high⟩ hl
    refine ⟨_, rfl, ?_⟩
    dsimp only
    rw [position, speed]
    exact ⟨fun h => (passed h).latched, fun hn he h => (astray hn he h).latched⟩
  · exact ⟨exec_emergencyStop_halts hl, exec_encoderFault_halts hl⟩

end Sys2Proof.Machine

namespace Sys2Proof.Machine

/-! ### The sources taken behind RESET and RESTART (R152) -/

/-- In IDLE or UNREFERENCED with no record open, sources have been taken, `src` the first: what that leaves (R137, R145, R152). -/
structure TrippedAtRest (s t : State) (src : Source) : Prop where
  state : t.seq.state = .tripped
  latch : t.trip.latch = true
  record : ∃ r, t.trip.record = some r ∧ r.cause = src
  lastEnd : t.seq.lastEnd = s.seq.lastEnd
  cfg : t.cfg = s.cfg
  inputs : t.inputs = s.inputs
  zones : t.zones = s.zones
  store : t.store = { s.store with inUse := none }
  referenced : t.travel.referenced = s.travel.referenced
  pending : t.pending = s.pending

/-- With no record open nothing is closed or flagged. -/
theorem Zones.none_open {z : Zones} (h : z.openRec = none) :
    (∀ f, z.onOpen f = z) ∧ ∀ c time trip, z.close c time trip = z := by
  refine ⟨fun f => ?_, fun c time trip => ?_⟩
  · unfold Zones.onOpen
    rw [h]
    cases z
    cases h
    rfl
  · unfold Zones.close
    rw [h]

/-- The orders at rest leave the reference (R145). -/
theorem State.tripResting_referenced (s : State) (src : Source) (ch : Option Channel) :
    (s.tripResting src ch).travel.referenced = s.travel.referenced := by
  unfold State.tripResting
  cases s.chosenResponse src
  case halt =>
    show ((s.travel.orderDisabled).setSpindle 0).referenced = _
    rw [Travel.setSpindle_eq]
    rfl
  all_goals rfl

theorem State.latchingTrip_atRest (s : State) (src : Source) (ch : Option Channel)
    (hrest : s.seq.state.isRest = true) (hopen : s.zones.openRec = none) :
    TrippedAtRest s (s.latchingTrip src ch) src := by
  obtain ⟨latch, ⟨r, record, cause, _⟩, _⟩ := s.latchingTrip_latched src ch
  obtain ⟨ordered, _⟩ := s.tripResting_ordered src ch
  obtain ⟨unchanged, kept⟩ := Zones.none_open hopen
  have zones : (s.tripResting src ch).zones = s.zones := ordered.zones.trans (unchanged _)
  have calm : s.seq.state.isScan = false := by
    cases hs : s.seq.state <;> simp_all [SeqState.isRest, SeqState.isScan]
  rw [s.latchingTrip_resting src ch hrest] at latch record ⊢
  refine ⟨?_, latch, ⟨r, record, cause⟩, ?_, ?_, ?_, ?_, ?_, ?_, ?_⟩
  · rw [State.enterTripped_seq]
  · rw [State.enterTripped_seq, ordered.seq, calm]
    rfl
  · rw [State.enterTripped_cfg, ordered.cfg]
  · rw [State.enterTripped_inputs, ordered.inputs]
  · rw [State.enterTripped_zones, zones, kept]
  · rw [State.enterTripped_store, ordered.store]
  · rw [State.enterTripped_travel, Travel.setSpindle_eq]
    exact s.tripResting_referenced src ch
  · rw [State.enterTripped_pending, ordered.pending]

namespace TrippedAtRest

/-- A further source in TRIPPED counts in the record, and a HALT gives its orders (R138, R147). -/
theorem furtherTrip {s t : State} {src : Source} (h : TrippedAtRest s t src) (src' : Source) :
    TrippedAtRest s (t.furtherTrip src') src := by
  obtain ⟨state, latch, ⟨r, hr, cause⟩, lastEnd, cfg, inputs, zones, store, referenced, pending⟩ := h
  have record : ∃ r, t.trip.record.map (·.further src') = some r ∧ r.cause = src :=
    ⟨r.further src', by rw [hr]; rfl, cause⟩
  rcases t.furtherTrip_cases src' with e | ⟨hs, _⟩ | ⟨_, e⟩
  · rw [e]
    exact ⟨state, latch, record, lastEnd, cfg, inputs, zones, store, referenced, pending⟩
  · rw [state] at hs
    cases hs
  · rw [e]
    refine ⟨state, latch, record, lastEnd, cfg, inputs, zones, store, ?_, pending⟩
    rw [State.haltOrders_travel, Travel.setSpindle_eq]
    exact referenced

theorem raises {s t : State} {src : Source} (h : TrippedAtRest s t src)
    (later : List Source) (trips : ∀ x ∈ later, s.classOf x = .trip) :
    TrippedAtRest s (later.foldl (fun t x => t.raise x none) t) src := by
  induction later generalizing t with
  | nil => exact h
  | cons x later ih =>
    have cls : t.classOf x = .trip := by
      unfold State.classOf
      rw [h.cfg]
      exact trips x List.mem_cons_self
    have raised : t.raise x none = t.furtherTrip x := by
      unfold State.raise
      rw [cls]
      exact if_pos h.latch
    rw [List.foldl_cons, raised]
    exact ih (h.furtherTrip x) fun y hy => trips y (List.mem_cons_of_mem _ hy)

end TrippedAtRest

/-- The inputs that are trip sources (R61, R85, R134). -/
def Inputs.trips (i : Inputs) : Source → Bool
  | .inverterFault => i.fault
  | .encoderFault => i.encoder
  | .estop => i.estop
  | _ => false

/-- Each of them is in the TRIP class in every configuration (R131). -/
theorem Inputs.trips_class {i : Inputs} {src : Source} (h : i.trips src = true) (c : TripCfg) :
    c.classOf src = .trip := by
  cases src
  case inverterFault | encoderFault | estop => rfl
  all_goals cases h

/-- The lowest active one is taken first (R152). -/
theorem Inputs.trips_first {i : Inputs} (active : i.fault = true ∨ i.encoder = true ∨ i.estop = true) :
    ∃ l, Source.all.filter i.trips = (if i.fault then .inverterFault
      else if i.encoder then .encoderFault else .estop) :: l := by
  obtain ⟨ready, fault, estop, encoder⟩ := i
  cases fault
  · cases encoder
    · obtain rfl : estop = true := by simpa using active
      exact ⟨_, rfl⟩
    · exact ⟨_, rfl⟩
  · exact ⟨_, rfl⟩

/-- Right after RESET or RESTART no source is present but the trip inputs (R152). -/
def State.OnlyInputs (s : State) : Prop := ∀ src, s.present src = s.inputs.trips src

/-- The conditions of the blocks are absent at their reset values (R67, R91, R113, R129, R152). -/
theorem State.OnlyInputs.of_reset {s : State} (c : MeasureCfg) (hpower : s.power = .reset)
    (hquench : s.quench = .reset) (hmeas : s.meas = .reset c) (htrip : s.trip = .reset)
    (hspindle : s.travel.spindleLow = false) (hfollow : s.travel.followingError = false)
    (hover : s.travel.overSoft = false ∧ s.travel.overLow = false ∧ s.travel.overHigh = false)
    (hencoder : s.travel.encoderFault = s.inputs.encoder) : s.OnlyInputs := by
  obtain ⟨soft, low, high⟩ := hover
  intro src
  cases src
  case sensorFault =>
    show (Channel.all.any fun ch => (s.meas.chan.get ch).sensorFault) = false
    rw [hmeas]
    rfl
  case overtravel =>
    show (s.travel.overSoft || s.travel.overLow || s.travel.overHigh) = false
    rw [soft, low, high]
    rfl
  case spindleLow => exact hspindle
  case followingError => exact hfollow
  case encoderFault => exact hencoder
  case inverterFault | forced | estop => rfl
  case inverterLost =>
    show s.inverterLost = false
    unfold State.inverterLost
    rw [hpower]
    rfl
  case coilOvercurrent | pyroHigh =>
    unfold State.present
    rw [hpower]
    rfl
  case coilWaterLow | quenchTempHigh =>
    unfold State.present
    rw [htrip]
    rfl
  case quenchFlowLow1 | quenchFlowLow2 | quenchFlowLow3 | trailFull =>
    unfold State.present
    rw [hquench]
    rfl

/-- The raises taken are those of the trip inputs in ascending order: each is in the TRIP class and stands for one raise (R131, R152). -/
theorem State.OnlyInputs.raiseTrips_eq {s : State} (h : s.OnlyInputs) :
    s.raiseTrips = (Source.all.filter s.inputs.trips).foldl (fun t src => t.raise src none) s := by
  have raises : ∀ l : List Source, (l.filter fun src => s.classOf src == .trip).flatMap s.raisesOf =
      (l.filter s.inputs.trips).map fun src => (src, none) := by
    intro l
    induction l with
    | nil => rfl
    | cons src l ih =>
      cases active : s.inputs.trips src
      · have absent : s.raisesOf src = [] := by
          unfold State.raisesOf
          rw [h src, active]
          rfl
        rw [List.filter_cons_of_neg (p := s.inputs.trips) (by simp [active]), ← ih, List.filter_cons]
        split
        · rw [List.flatMap_cons, absent, List.nil_append]
        · rfl
      · have one : s.raisesOf src = [(src, none)] := by
          unfold State.raisesOf
          rw [h src, active, if_pos rfl, if_neg]
          rintro rfl
          cases active
        have cls : s.classOf src = .trip := Inputs.trips_class active s.cfg.trip
        rw [List.filter_cons_of_pos (by simp [cls]), List.flatMap_cons, one, ih,
          List.filter_cons_of_pos active]
        rfl
  unfold State.raiseTrips State.raisePresent
  rw [raises, List.foldl_map]

/-- With the trip inputs inactive nothing is taken (R152). -/
theorem State.OnlyInputs.raiseTrips_quiet {s : State} (h : s.OnlyInputs) (hf : s.inputs.fault = false)
    (he : s.inputs.encoder = false) (hs : s.inputs.estop = false) : s.raiseTrips = s := by
  have quiet : ∀ src, s.inputs.trips src = false := by
    intro src
    cases src
    case inverterFault => exact hf
    case encoderFault => exact he
    case estop => exact hs
    all_goals rfl
  rw [h.raiseTrips_eq, List.filter_eq_nil_iff.2 fun src _ => by rw [quiet]; decide]
  rfl

/-- With one of them active the lowest source trips, and the others are counted (R137, R138, R152). -/
theorem State.OnlyInputs.raiseTrips_trips {s : State} (h : s.OnlyInputs) (hl : s.trip.latch = false)
    (hrest : s.seq.state.isRest = true) (hopen : s.zones.openRec = none)
    (active : s.inputs.fault = true ∨ s.inputs.encoder = true ∨ s.inputs.estop = true) :
    TrippedAtRest s s.raiseTrips (if s.inputs.fault then .inverterFault
      else if s.inputs.encoder then .encoderFault else .estop) := by
  obtain ⟨later, first⟩ := Inputs.trips_first active
  have cls : ∀ x ∈ Source.all.filter s.inputs.trips, s.classOf x = .trip := fun x hx =>
    Inputs.trips_class (List.mem_filter.1 hx).2 s.cfg.trip
  rw [first] at cls
  rw [h.raiseTrips_eq, first, List.foldl_cons, s.raise_latching _ none (cls _ List.mem_cons_self) hl]
  exact (s.latchingTrip_atRest _ none hrest hopen).raises later fun x hx => cls x (List.mem_cons_of_mem _ hx)

/-! ### RESTART and RESET (R195, R196) -/

/-- The part behind an accepted RESTART and its STATE notice, before present sources are taken (R195). -/
def State.restartTold (s : State) : State :=
  s.restarted.notify (.state s.restarted.seq.state .restart none)

theorem State.restartTold_onlyInputs (s : State) : s.restartTold.OnlyInputs :=
  .of_reset s.cfg.measure rfl rfl rfl rfl rfl rfl ⟨rfl, rfl, rfl⟩ rfl

theorem State.afterReset_onlyInputs (i : Inputs) (pending : List Instr) :
    (State.afterReset i pending).OnlyInputs :=
  .of_reset .default rfl rfl rfl rfl rfl rfl ⟨rfl, rfl, rfl⟩ rfl

theorem State.restartTold_rest (s : State) : s.restartTold.seq.state.isRest = true := by
  show SeqState.isRest (if _ then _ else _) = true
  split <;> rfl

/-- With no encoder fault the reference stands (R67). -/
theorem State.restartTold_eq (s : State) (he : s.inputs.encoder = false) :
    s.restartTold = { s with
      seq := { Seq.reset with
        state := if s.travel.referenced then .idle else .unreferenced, lastEnd := s.seq.lastEnd }
      travel := { Travel.reset with
        position := s.travel.position, history := List.replicate 16 s.travel.position,
        referenced := s.travel.referenced, plan := s.travel.position * 1000, rpm := s.travel.rpm }
      power := .reset, quench := .reset, meas := .reset s.cfg.measure, trip := .reset
      store := { s.store with inUse := none }
      link := s.link.restart.stated (if s.travel.referenced then .idle else .unreferenced) .restart } := by
  have kept : (s.travel.referenced && !s.inputs.encoder) = s.travel.referenced := by
    rw [he, Bool.not_false, Bool.and_true]
  unfold State.restartTold State.restarted Travel.restart Seq.restart
  dsimp only
  rw [kept, he]
  rfl

/-- RESTART is accepted at rest and in TRIPPED (R47). -/
theorem State.restartAnswer_ok (s : State) :
    (s.seq.state.isRest = true ∨ s.seq.state = .tripped → s.restartAnswer = .ok) ∧
      (¬(s.seq.state.isRest = true ∨ s.seq.state = .tripped) → s.restartAnswer = .state) :=
  ⟨fun h => if_pos h, fun h => if_neg h⟩

theorem State.serveRestart_accepted (s : State) (tag : Byte)
    (h : s.seq.state.isRest = true ∨ s.seq.state = .tripped) :
    s.serveRestart tag = (s.replied 0x83#8 tag .ok []).restartTold.raiseTrips := by
  unfold State.serveRestart
  rw [s.restartAnswer_ok.1 h]
  rfl

/-- Settles O42: behind both only the trip inputs are present; inactive they raise nothing, active the lowest trips at rest. -/
theorem restartAndReset : Obligations.RestartAndReset := by
  refine ⟨fun tag s taken => ⟨fun hn => ?_, fun ho hf he hs => ?_, fun inv ho active => ?_⟩,
    fun s => ⟨fun hf he hs => ?_, fun active => ?_⟩⟩
  · rw [exec_restart_taken taken]
    unfold State.serveRestart
    rw [s.restartAnswer_ok.2 hn]
    rfl
  · have quiet := (s.replied 0x83#8 tag .ok []).restartTold_onlyInputs.raiseTrips_quiet hf he hs
    rw [exec_restart_taken taken, s.serveRestart_accepted tag ho, quiet,
      (s.replied 0x83#8 tag .ok []).restartTold_eq he]
    rfl
  · have opened : s.zones.openRec = none := by
      refine (inv.closed ?_ ?_).1
      all_goals rcases ho with hr | hr <;> revert hr <;> cases s.seq.state <;> decide
    obtain ⟨state, latch, ⟨r, record, cause⟩, last, cfg, inputs, zones, store, referenced, pending⟩ :=
      ((s.replied 0x83#8 tag .ok []).restartTold_onlyInputs).raiseTrips_trips rfl s.restartTold_rest opened active
    exact ⟨_, r, (exec_restart_taken taken).trans (congrArg _ (s.serveRestart_accepted tag ho)), state, latch,
      record, cause, last, cfg, inputs, congrArg Zones.closed zones, (congrArg Store.pages store :), referenced,
      pending⟩
  · show Host.Outcome.next s.resetPart = _
    unfold State.resetPart
    rw [(State.afterReset_onlyInputs _ _).raiseTrips_quiet hf he hs]
    unfold State.afterReset
    rw [he]
    rfl
  · obtain ⟨state, latch, ⟨r, record, cause⟩, _, cfg, inputs, zones, store, _, pending⟩ :=
      (State.afterReset_onlyInputs s.inputs s.pending).raiseTrips_trips rfl rfl rfl active
    exact ⟨_, r, rfl, state, latch, record, cause, cfg, inputs, zones, store, pending⟩

end Sys2Proof.Machine

namespace Sys2Proof.Machine

/-! ### The stages of a power update (R73, R75 to R82) -/

theorem exec_powerUpdate (s : State) : exec .powerUpdate s = .next s.powerUpdate := rfl

/-- An output of 0 has the code 0, whatever the rated power (R82). -/
@[simp] theorem setpointCode_zero (rated : Nat) : setpointCode 0 rated = 0 := by
  have small : (rated : Int) / ((2 * rated : Nat) : Int) = 0 := by
    rcases Nat.eq_zero_or_pos rated with rfl | h
    · rfl
    · exact Int.ediv_eq_zero_of_lt (by omega) (by push_cast; omega)
  unfold setpointCode roundDiv
  rw [if_pos (by simp), Nat.cast_zero, zero_mul, mul_zero, zero_add, small]
  rfl

/-- Stage 1 holds A or clamps it (R72, R73). -/
theorem stage1_cases (p : Power) (pMin : Nat) (running : Bool) (fit : Option Int) :
    stage1 p pMin running fit = p.acc ∨ ∃ m, stage1 p pMin running fit = correctAcc p.acc p.pOut m := by
  unfold stage1
  split
  · split
    · exact .inr ⟨_, rfl⟩
    · exact .inl rfl
  · exact .inl rfl

theorem stage5_le (pCorr pMax rated : Nat) : (stage5 pCorr pMax rated).1 ≤ pMax := by
  unfold stage5
  split
  · assumption
  · exact Nat.le_refl _

theorem stage5_value (pCorr pMax rated : Nat) : (stage5 pCorr pMax rated).1 = min pCorr pMax := by
  unfold stage5
  split
  · exact (Nat.min_eq_left ‹_›).symm
  · exact (Nat.min_eq_right (by omega)).symm

theorem stage6_le (value pMin : Nat) : (stage6 value pMin).1 ≤ value := by
  unfold stage6
  split
  · exact Nat.zero_le _
  · exact Nat.le_refl _

/-- An update that would still lie above the ceiling one ramp step down is cut (R80). -/
theorem capCut_iff (value pPrev ramp pMax : Nat) :
    capCut value pPrev ramp pMax = true ↔ value + ramp < pPrev ∧ pMax < pPrev - ramp := by
  simp [capCut]

/-- Stage 7 passes no ceiling that its value keeps, and moves by at most the ramp limit or to 0 (R80). -/
theorem stage7_bounds (value pPrev ramp pMax : Nat) (under : Bool) (h : value ≤ pMax) :
    let out := stage7 value pPrev ramp pMax under
    out ≤ pMax ∧ (out = 0 ∨ (out ≤ pPrev + ramp ∧ pPrev ≤ out + ramp)) := by
  have cut := capCut_iff value pPrev ramp pMax
  unfold stage7
  split
  · exact ⟨Nat.zero_le _, .inl rfl⟩
  · rename_i hn
    have kept : ¬(value + ramp < pPrev ∧ pMax < pPrev - ramp) := fun hc => hn (by simp [cut.2 hc])
    split_ifs <;> omega

/-- The output of stages 3 to 7 lies within the ceiling and the ramp (R78, R80). -/
theorem stages_bounds (pBase t : Nat) (acc : Int) (pMax rated pMin pPrev ramp : Nat) :
    let out := (stages pBase t acc pMax rated pMin pPrev ramp).pOut
    out ≤ pMax ∧ (out = 0 ∨ (out ≤ pPrev + ramp ∧ pPrev ≤ out + ramp)) :=
  stage7_bounds _ _ _ _ _ ((stage6_le _ _).trans (stage5_le _ _ _))

/-! ### What an update answers (R68, R69, R72, R74) -/

/-- The base demand of a HEAT or DWELL step Active in RUNNING: stage 2 (R74). -/
def State.baseDemand (s : State) : Option Nat :=
  match s.demand with
  | .heat e => some (heatDemand e s.travel.speed)
  | .dwell p => some p
  | .zeroCase => none

/-- A as stage 1 leaves it, the zero case included (R72, R74). -/
def State.correctedAcc (s : State) : Int :=
  stage1 s.power (floorPower s.cfg.machine) (s.seq.state == .running) s.fitMeas

/-- The output 0 of a forced zero and of the zero case (R69, R74). -/
def UpdateResult.zero (acc : Int) : UpdateResult :=
  { pOut := 0, ceiling := .none, underFloor := false, acc := acc }

theorem State.updateResult_forced (s : State) (h : s.forcedZero = true) :
    s.updateResult = .zero s.power.acc := by
  unfold State.updateResult
  rw [if_pos h]
  rfl

theorem State.updateResult_idle (s : State) (h : s.forcedZero = false) (hd : s.baseDemand = none) :
    s.updateResult = .zero s.correctedAcc := by
  unfold State.baseDemand at hd
  unfold State.updateResult
  rw [h]
  cases he : s.demand <;> rw [he] at hd
  case zeroCase => rfl
  all_goals cases hd

theorem State.updateResult_heating (s : State) (b : Nat) (h : s.forcedZero = false)
    (hd : s.baseDemand = some b) :
    s.updateResult = stages b s.seq.trimT s.correctedAcc s.pMax s.cfg.machine.pRated
      (floorPower s.cfg.machine) s.power.pOut s.cfg.machine.rampLimit := by
  unfold State.baseDemand at hd
  unfold State.updateResult
  rw [h]
  cases he : s.demand <;> rw [he] at hd <;> cases hd <;> rfl

theorem State.forcedZero_iff (s : State) :
    s.forcedZero = true ↔
      s.power.inhibit = true ∨ s.seq.state = .tripping ∨ s.seq.state = .tripped := by
  simp [State.forcedZero, or_assoc]

theorem State.baseDemand_none_iff (s : State) : s.baseDemand = none ↔ s.heatingZone = none := by
  unfold State.baseDemand State.demand State.heatingZone
  split_ifs
  · cases s.seq.active with
    | none => simp
    | some a => cases ha : a.step <;> simp [ha, ScanStep.zone?]
  · simp

/-- Three kinds of update: a forced zero, the zero case, and a HEAT or DWELL step's stages (R69, R74). -/
theorem State.updateResult_cases (s : State) :
    (s.forcedZero = true ∧ s.updateResult = .zero s.power.acc) ∨
      (s.forcedZero = false ∧ s.baseDemand = none ∧ s.updateResult = .zero s.correctedAcc) ∨
      ∃ b, s.forcedZero = false ∧ s.baseDemand = some b ∧
        s.updateResult = stages b s.seq.trimT s.correctedAcc s.pMax s.cfg.machine.pRated
          (floorPower s.cfg.machine) s.power.pOut s.cfg.machine.rampLimit := by
  cases h : s.forcedZero
  · cases hd : s.baseDemand with
    | none => exact .inr (.inl ⟨rfl, rfl, s.updateResult_idle h hd⟩)
    | some b => exact .inr (.inr ⟨b, rfl, rfl, s.updateResult_heating b h hd⟩)
  · exact .inl ⟨rfl, s.updateResult_forced h⟩

/-- The accumulator an update leaves: held under a forced zero, else as stage 1 leaves it (R69, R72). -/
theorem State.updateResult_acc (s : State) :
    s.updateResult.acc = if s.forcedZero then s.power.acc else s.correctedAcc := by
  rcases s.updateResult_cases with ⟨h, e⟩ | ⟨h, _, e⟩ | ⟨_, h, _, e⟩ <;> rw [e, h] <;> rfl

/-- Every update leaves an output within the ceiling in force and the ramp (R78, R80). -/
theorem State.updateResult_bounds (s : State) :
    let out := s.updateResult.pOut
    let ramp := s.cfg.machine.rampLimit
    out ≤ s.pMax ∧ (out = 0 ∨ (out ≤ s.power.pOut + ramp ∧ s.power.pOut ≤ out + ramp)) := by
  rcases s.updateResult_cases with ⟨_, e⟩ | ⟨_, _, e⟩ | ⟨_, _, _, e⟩ <;> dsimp only <;> rw [e]
  · exact ⟨Nat.zero_le _, .inl rfl⟩
  · exact ⟨Nat.zero_le _, .inl rfl⟩
  · exact stages_bounds _ _ _ _ _ _ _ _

/-- The ceiling in force: the least of the rated power and the caps of the present LIMIT conditions (R77). -/
theorem State.pMax_eq (s : State) :
    let x := s.cfg.trip
    let rated := s.cfg.machine.pRated
    s.pMax = min rated (min
      (if s.power.coilOver = true ∧ x.classCoilOver = .limit then x.capCoilOver * rated / 100 else rated)
      (if s.power.pyroHigh = true ∧ x.classPyro = .limit then x.capPyro * rated / 100 else rated)) := by
  unfold State.pMax limitCap
  simp only [Bool.and_eq_true, beq_iff_eq]
  split_ifs <;> omega

/-- Behind an update only the Power Unit, the open record and the ages differ (R68, R88, R122). -/
theorem State.powerUpdate_eq (s : State) :
    s.powerUpdate = { s with
      power := { s.power with
        pOut := s.updateResult.pOut, ceiling := s.updateResult.ceiling,
        underFloor := s.updateResult.underFloor, acc := s.updateResult.acc,
        code := setpointCode s.updateResult.pOut s.cfg.machine.pRated }
      zones := s.zones.onOpen
        (·.report (s.seq.state == .running) s.power.inhibit (s.reportOf s.updateResult))
      meas := s.meas.older } := rfl

theorem State.powerUpdate_keeps (s : State) : Keeps s s.powerUpdate [.power, .zones, .meas] := by
  simp [Keeps, State.powerUpdate_eq]

/-- The zones behind a report: the current zone counts it in RUNNING without inhibit, and no other (R156). -/
def OpenRecord.reportedZones (r : OpenRecord) (running inhibit : Bool) (u : UpdateReport) : List ZoneEntry :=
  match r.current with
  | some c => if running && !inhibit then r.zones.modify c.zone fun e => { e with acc := e.acc.report u }
    else r.zones
  | none => r.zones

/-- A report sets the latest output, status and powered mark of the record (R156). -/
theorem OpenRecord.report_eq (r : OpenRecord) (running inhibit : Bool) (u : UpdateReport) :
    r.report running inhibit u = { r with
      ceiling := u.ceiling, pOut := u.pOut, powered := r.powered || decide (0 < u.pOut)
      zones := r.reportedZones running inhibit u } := by
  unfold OpenRecord.report OpenRecord.reportedZones
  cases r.current with
  | none => rfl
  | some c => cases running <;> cases inhibit <;> rfl

/-! ### Updates without heating (R69, R74) -/

/-- Settles O47: a forced zero and the zero case both answer an output of 0. -/
theorem noHeatingNoPower : Obligations.NoHeatingNoPower := by
  refine ⟨fun s h => ⟨_, exec_powerUpdate s, ?_⟩, fun s h => ⟨_, exec_powerUpdate s, ?_⟩⟩
  · have result := s.updateResult_forced (s.forcedZero_iff.2 h)
    refine ⟨?_, rfl, rfl, fun r hr => ?_, fun hr => ?_, s.powerUpdate_keeps⟩
    · simp [State.powerUpdate_eq, result, UpdateResult.zero]
    · refine ⟨r.report (s.seq.state == .running) s.power.inhibit (s.reportOf s.updateResult), ?_, ?_⟩
      · simp [State.powerUpdate_eq, Zones.onOpen, hr]
      · simp [OpenRecord.report_eq, State.reportOf, result, UpdateResult.zero]
    · simp [State.powerUpdate_eq, Zones.onOpen, hr]
  · obtain ⟨acc, result⟩ : ∃ acc, s.updateResult = .zero acc := by
      rcases s.updateResult_cases with ⟨_, e⟩ | ⟨_, _, e⟩ | ⟨_, _, hb, _⟩
      · exact ⟨_, e⟩
      · exact ⟨_, e⟩
      · rw [s.baseDemand_none_iff.2 h] at hb
        cases hb
    refine ⟨?_, ?_, ?_, ?_, rfl, s.powerUpdate_keeps⟩ <;>
      simp [State.powerUpdate_eq, result, UpdateResult.zero]

/-! ### The correction (R71 to R73) -/

/-- INV_P is fit for stage 1 when published and at most 2 ms old (R71). -/
theorem State.fitMeas_iff (s : State) (m : Int) :
    s.fitMeas = some m ↔
      s.meas.chan.invP.published = some m ∧ ∃ age, s.meas.chan.invP.age = some age ∧ age ≤ 2 := by
  unfold State.fitMeas
  split
  · rename_i v age hv hage
    rw [hv, hage]
    constructor
    · intro h
      split at h
      · cases h
        exact ⟨rfl, age, rfl, ‹_›⟩
      · cases h
    · rintro ⟨h, n, hn, hle⟩
      cases h
      cases hn
      exact if_pos hle
  · rename_i hn
    constructor
    · nofun
    · rintro ⟨h, n, hage, _⟩
      exact absurd hage (hn m n h)

/-- The correction is taken at this update, with this measured value (R69, R72). -/
def State.Corrects (s : State) (m : Int) : Prop :=
  s.forcedZero = false ∧ s.seq.state = .running ∧ s.fitMeas = some m ∧ 0 < s.power.pOut ∧
    floorPower s.cfg.machine ≤ s.power.pOut ∧ s.power.ceiling = .none

theorem State.updateResult_corrects (s : State) (m : Int) (h : s.Corrects m) :
    s.updateResult.acc = correctAcc s.power.acc s.power.pOut m := by
  obtain ⟨forced, running, fit, positive, floor, status⟩ := h
  rw [s.updateResult_acc, forced]
  simp [State.correctedAcc, stage1, running, fit, positive, floor, status]

theorem State.updateResult_holds (s : State) (h : ∀ m, ¬s.Corrects m) :
    s.updateResult.acc = s.power.acc := by
  rw [s.updateResult_acc]
  cases forced : s.forcedZero
  · rw [if_neg Bool.false_ne_true]
    unfold State.correctedAcc stage1
    cases fit : s.fitMeas with
    | none => rfl
    | some m =>
      refine if_neg fun taken => h m ?_
      simp only [Bool.and_eq_true, beq_iff_eq, decide_eq_true_eq] at taken
      obtain ⟨⟨⟨running, positive⟩, floor⟩, status⟩ := taken
      exact ⟨forced, running, fit, positive, floor, status⟩
  · rfl

/-- In RUNNING an update is a forced zero under inhibit alone (R69). -/
theorem State.forcedZero_running (s : State) (h : s.seq.state = .running) :
    s.forcedZero = s.power.inhibit := by
  rw [State.forcedZero, h]
  exact (Bool.or_false _).trans (Bool.or_false _)

/-- Settles O48: stage 1 is taken exactly where R72 says, and clamps its sum. -/
theorem correctionLearns : Obligations.CorrectionLearns := by
  intro s floor taken
  have corrects : ∀ m, s.Corrects m ↔ ∃ age, taken m age := fun m => by
    constructor
    · rintro ⟨forced, running, fit, positive, least, status⟩
      obtain ⟨published, age, hage, fresh⟩ := (s.fitMeas_iff m).1 fit
      rw [s.forcedZero_running running] at forced
      exact ⟨age, forced, running, published, hage, fresh, positive, least, status⟩
    · rintro ⟨age, inhibit, running, published, hage, fresh, positive, least, status⟩
      exact ⟨(s.forcedZero_running running).trans inhibit, running,
        (s.fitMeas_iff m).2 ⟨published, age, hage, fresh⟩, positive, least, status⟩
  exact ⟨_, exec_powerUpdate s,
    fun m age h => s.updateResult_corrects m ((corrects m).2 ⟨age, h⟩),
    fun h => s.updateResult_holds fun m hm => ((corrects m).1 hm).elim fun age => h m age⟩

/-! ### The ceiling and the ramp (R77 to R82) -/

theorem State.baseDemand_step (s : State) (a : Admitted) (base : Nat) (hs : s.seq.state = .running)
    (ha : s.seq.active = some a)
    (h : (∃ p v e z q1 q2 n, a.step = .heat p v e z q1 q2 n ∧
        base = (roundDiv ((e : Int) * s.travel.speed.natAbs) 10000).toNat) ∨
      ∃ d z n, a.step = .dwell base d z n) : s.baseDemand = some base := by
  unfold State.baseDemand State.demand
  rw [if_pos hs, ha]
  rcases h with ⟨p, v, e, z, q1, q2, n, hstep, rfl⟩ | ⟨d, z, n, hstep⟩ <;> simp only [hstep]
  rfl

/-- The stages of an update, written out: trim and correction, the ceiling, the floor, the cap cut and the ramp (R75 to R80). -/
theorem stages_eq (base t : Nat) (acc : Int) (top rated floor last ramp : Nat) :
    let trimmed := (roundDiv ((base : Int) * t) 1000).toNat
    let corrected := (roundDiv ((trimmed : Int) * (1000 + acc.tdiv 64)) 1000).toNat
    let under := 0 < min corrected top ∧ min corrected top < floor
    let value := if under then 0 else min corrected top
    let cut := value + ramp < last ∧ top < last - ramp
    let out := stages base t acc top rated floor last ramp
    out.pOut = (if under ∨ cut then 0 else if last + ramp < value then last + ramp
      else if value + ramp < last then last - ramp else value) ∧
    (out.underFloor = true ↔ under) ∧
    out.ceiling = (if cut then .limited else if corrected ≤ top then .none
      else if top = rated then .saturated else .limited) := by
  intro trimmed corrected under value cut out
  have five : stage5 (stage4 (stage3 base t) (correction acc)) top rated = stage5 corrected top rated := rfl
  have six : stage6 (stage5 corrected top rated).1 floor = (value, decide under) := by
    rw [stage5_value]
    unfold stage6
    by_cases h : under
    · rw [if_pos h]
      simp [value, h]
    · rw [if_neg h]
      simp [value, h]
  have cuts : capCut value last ramp top = decide cut := by
    rw [Bool.eq_iff_iff, capCut_iff, decide_eq_true_iff]
  refine ⟨?_, ?_, ?_⟩
  · show stage7 _ _ _ _ _ = _
    rw [five, six]
    unfold stage7
    rw [cuts]
    exact if_congr (by simp) rfl rfl
  · show (stage6 _ _).2 = true ↔ _
    rw [five, six]
    exact decide_eq_true_iff
  · show (if capCut (stage6 _ _).1 last ramp top = true then Ceiling.limited else _) = _
    rw [five, six, cuts]
    unfold stage5
    refine if_congr decide_eq_true_iff rfl ?_
    split_ifs <;> rfl

/-- Stage 7 above the floor: the cap cut, a step up, a step down, or the value (R80). -/
theorem stage7_ramps (value pPrev ramp pMax : Nat) :
    stage7 value pPrev ramp pMax false =
      if value + ramp < pPrev ∧ pMax < pPrev - ramp then 0
      else if pPrev + ramp < value then pPrev + ramp
      else if value + ramp < pPrev then pPrev - ramp else value :=
  if_congr (by rw [Bool.false_or, capCut_iff]) rfl rfl

/-- Settles O49: the stages as their tables, the bounds they put on every update, and what it leaves of the part. -/
theorem ceilingAndRamp : Obligations.CeilingAndRamp := by
  refine ⟨fun pCorr pMax rated => ⟨fun h => ?_, fun h e => ?_, fun h hr => ?_⟩,
    fun value pPrev ramp pMax => ⟨rfl, fun h h' => ?_, fun h => ?_, fun h h' => ?_, fun h h' => ?_⟩,
    fun s => ?_⟩
  · exact if_pos h
  · rw [stage5, if_neg (Nat.not_le.2 h), if_pos e]
  · rw [stage5, if_neg (Nat.not_le.2 h), if_neg hr.ne]
  · rw [stage7_ramps, if_neg (by omega), if_neg (by omega), if_neg (by omega)]
  · rw [stage7_ramps, if_neg (by omega), if_pos h]
  · rw [stage7_ramps, if_neg (by omega), if_neg (by omega), if_pos h]
  · rw [stage7_ramps, if_pos ⟨h, h'⟩]
  · intro m x rated coil pyro top last
    have ceiling : s.pMax = top := s.pMax_eq
    obtain ⟨below, ramped⟩ := s.updateResult_bounds
    refine ⟨_, exec_powerUpdate s, ceiling ▸ below, ramped, fun a base inhibit running active step => ?_,
      rfl, rfl, rfl, rfl, rfl, rfl, rfl, s.powerUpdate_keeps⟩
    have result := s.updateResult_heating base ((s.forcedZero_running running).trans inhibit)
      (s.baseDemand_step a base running active step)
    rw [ceiling] at result
    have acc : s.powerUpdate.power.acc = s.correctedAcc := by
      rw [State.powerUpdate_eq, result]
      rfl
    rw [acc, State.powerUpdate_eq, result]
    exact stages_eq base s.seq.trimT s.correctedAcc top rated (floorPower m) last m.rampLimit

end Sys2Proof.Machine

namespace Sys2Proof.Machine

/-! ### What an operation keeps of power and of the open record

The power bounds (R69, R70, R73, R78, R82, R83) and what the zones of an open record have counted (R156 to R159) are kept by nearly
every operation of a step, for the same reasons: it leaves both alone, it makes a zero order, or it closes the record. -/

namespace PowerInv

/-- The bounds read the clamp, output, code and enable of the Power Unit, the rated power and the Sequencer state. -/
theorem of_same {s t : State} (h : PowerInv s) (hacc : t.power.acc = s.power.acc)
    (hout : t.power.pOut = s.power.pOut) (hcode : t.power.code = s.power.code)
    (henable : t.power.enable = s.power.enable) (hrated : t.cfg.machine = s.cfg.machine)
    (hstate : t.seq.state = s.seq.state) : PowerInv t := by
  unfold PowerInv at h ⊢
  rw [hacc, hout, hcode, henable, hrated, hstate]
  exact h

/-- With output, code and enable off they hold in every state. -/
theorem of_isOff {t : State} (h : -12800 ≤ t.power.acc ∧ t.power.acc ≤ 12800) (off : t.power.isOff) :
    PowerInv t := by
  obtain ⟨out, code, enable⟩ := off
  refine ⟨h.1, h.2, ?_, ?_, fun _ => out, fun e => ?_⟩
  · rw [out]
    exact Nat.zero_le _
  · rw [out, code, setpointCode_zero]
  · rw [enable] at e
    cases e

/-- A zero order that turns the enable off (R70). -/
theorem off {s t : State} (h : PowerInv s) (hp : t.power = s.power.off) : PowerInv t := by
  obtain ⟨low, high, _⟩ := h
  exact of_isOff (by rw [hp]; exact ⟨low, high⟩) (by rw [hp]; exact ⟨rfl, rfl, rfl⟩)

/-- Outside PRESTART and RUNNING all three are off (R69, R70, R83). -/
theorem isOff {s : State} (h : PowerInv s) (hp : s.seq.state ≠ .prestart) (hr : s.seq.state ≠ .running) :
    s.power.isOff := by
  obtain ⟨_, _, _, code, out, enable⟩ := h
  refine ⟨out hr, ?_, ?_⟩
  · rw [code, out hr, setpointCode_zero]
  · by_contra he
    exact (enable (Bool.not_eq_false _ ▸ he)).elim hp hr

/-- From a state outside them every other can be entered, under every configuration. -/
theorem moved {s t : State} (h : PowerInv s) (hp : s.seq.state ≠ .prestart)
    (hr : s.seq.state ≠ .running) (same : t.power = s.power) : PowerInv t := by
  have bounds := h
  obtain ⟨low, high, _⟩ := bounds
  exact of_isOff (by rw [same]; exact ⟨low, high⟩) (by rw [same]; exact h.isOff hp hr)

end PowerInv

/-- A zone entry without its WARN flag (R158). -/
def ZoneEntry.unwarned (e : ZoneEntry) : ZoneEntry := { e with acc := { e.acc with warn := false } }

/-- What the zones of the open record have counted: all but their WARN flags (R156 to R159). -/
def Zones.counted (z : Zones) : Option (List ZoneEntry) :=
  z.openRec.map fun r => r.zones.map ZoneEntry.unwarned

namespace Zones

/-- An update of the open record that leaves what its zones have counted. -/
theorem counted_onOpen (z : Zones) (f : OpenRecord → OpenRecord)
    (h : ∀ r, (f r).zones.map ZoneEntry.unwarned = r.zones.map ZoneEntry.unwarned) :
    (z.onOpen f).counted = z.counted := by
  unfold counted onOpen
  cases z.openRec with
  | none => rfl
  | some r => exact congrArg some (h r)

theorem counted_noZone (z : Zones) : (z.onOpen OpenRecord.noZone).counted = z.counted :=
  z.counted_onOpen _ fun _ => rfl

theorem counted_activated (z : Zones) (zone : Option Nat) (heat : Bool) :
    (z.onOpen (·.activated zone heat)).counted = z.counted :=
  z.counted_onOpen _ fun r => by cases zone <;> rfl

/-- A WARN flag is no count. -/
theorem counted_warnFlag (z : Zones) (zone : Option Nat) :
    (z.onOpen (·.warnFlag zone)).counted = z.counted := by
  refine z.counted_onOpen _ fun r => ?_
  cases zone with
  | none => rfl
  | some i =>
    show (r.zones.modify i _).map _ = _
    apply List.ext_getElem?
    intro j
    rw [List.getElem?_map, List.getElem?_map, List.getElem?_modify]
    cases r.zones[j]? with
    | none => rfl
    | some e => by_cases hi : i = j <;> simp [hi, ZoneEntry.unwarned]

theorem counted_close (z : Zones) (c : EndCause) (time : Nat) (trip : Option TripRecord) :
    (z.close c time trip).counted = none := by
  unfold counted
  rw [(z.close_count c time trip).1]
  rfl

end Zones

/-- Between the two states the power bounds have been kept, and the zones of an open record have counted nothing, nor lost anything
unless the record was closed. -/
structure Spares (s t : State) : Prop where
  power : PowerInv s → PowerInv t
  zones : t.zones.counted = none ∨ t.zones.counted = s.zones.counted

namespace Spares

theorem refl (s : State) : Spares s s := ⟨id, .inr rfl⟩

theorem trans {s t u : State} (h : Spares s t) (h' : Spares t u) : Spares s u := by
  refine ⟨h'.power ∘ h.power, ?_⟩
  rcases h'.zones with e | e
  · exact .inl e
  · exact e ▸ h.zones

theorem behind {s t u : State} (h' : Spares t u) (h : Spares s t) : Spares s u := h.trans h'

/-- Carriage, quench, measurement, trip, store, link, inputs and most of the Sequencer are free. -/
theorem of_blocks {s t : State} (hpower : t.power = s.power) (hcfg : t.cfg = s.cfg)
    (hstate : t.seq.state = s.seq.state) (hzones : t.zones = s.zones) : Spares s t :=
  ⟨fun h => h.of_same (by rw [hpower]) (by rw [hpower]) (by rw [hpower]) (by rw [hpower]) (by rw [hcfg]) hstate,
    .inr (by rw [hzones])⟩

theorem onTravel (s : State) (f : Travel → Travel) : Spares s (s.onTravel f) := of_blocks rfl rfl rfl rfl

/-- A zero order with the enable off (R70). -/
theorem of_off {s t : State} (hpower : t.power = s.power.off)
    (hzones : t.zones.counted = none ∨ t.zones.counted = s.zones.counted) : Spares s t :=
  ⟨fun h => h.off hpower, hzones⟩

/-- Another Sequencer state, from one outside PRESTART and RUNNING (R83). -/
theorem of_moved {s t : State} (hp : s.seq.state ≠ .prestart) (hr : s.seq.state ≠ .running)
    (hpower : t.power = s.power) (hzones : t.zones.counted = none ∨ t.zones.counted = s.zones.counted) :
    Spares s t :=
  ⟨fun h => h.moved hp hr hpower, hzones⟩

end Spares

namespace State

/-! ### Trips (R135 to R147) -/

theorem enterTripped_spares (s : State) (hs : s.seq.state = .tripping) : Spares s s.enterTripped :=
  .of_moved (by simp [hs]) (by simp [hs]) s.enterTripped_power
    (.inl (by rw [State.enterTripped_zones, Zones.counted_close]))

theorem tripProgress_spares (s : State) : Spares s s.tripProgress := by
  rcases s.tripProgress_cases with e | ⟨hs, _, e⟩ <;> rw [e]
  · exact .refl s
  · exact s.enterTripped_spares hs

theorem latchingTrip_spares (s : State) (src : Source) (ch : Option Channel) :
    Spares s (s.latchingTrip src ch) := by
  obtain ⟨u, st, ordered, e⟩ := s.latchingTrip_ordered src ch
  rcases e with ⟨_, e⟩ | e <;> rw [e]
  · exact .of_off ordered.power (.inr (by rw [ordered.zones, Zones.counted_noZone]))
  · refine .of_off (u.enterTripped_power.trans ordered.power) (.inl ?_)
    rw [State.enterTripped_zones, Zones.counted_close]

theorem furtherTrip_spares (s : State) (src : Source) : Spares s (s.furtherTrip src) := by
  rcases s.furtherTrip_cases src with e | ⟨_, e | e⟩ | ⟨_, e⟩ <;> rw [e]
  · exact .of_blocks rfl rfl rfl rfl
  · exact (State.tripProgress_spares _).behind (.of_off rfl (.inr rfl))
  · exact (State.tripProgress_spares _).behind (.of_off rfl (.inr rfl))
  · exact .of_blocks rfl rfl rfl rfl

theorem raise_spares (s : State) (src : Source) (ch : Option Channel) : Spares s (s.raise src ch) := by
  unfold State.raise
  split
  · exact ⟨fun h => h.of_same rfl rfl rfl rfl rfl rfl, .inr (s.zones.counted_warnFlag _)⟩
  · exact .refl s
  · split
    · exact s.furtherTrip_spares src
    · exact s.latchingTrip_spares src ch

theorem raiseIf_spares (s : State) (was now : Bool) (src : Source) (ch : Option Channel) :
    Spares s (s.raiseIf was now src ch) := by
  unfold State.raiseIf
  split
  · exact s.raise_spares src ch
  · exact .refl s

theorem raisePresent_spares (s : State) (test : Source → Bool) : Spares s (s.raisePresent test) := by
  unfold State.raisePresent
  generalize (Source.all.filter test).flatMap s.raisesOf = raises
  induction raises generalizing s with
  | nil => exact .refl s
  | cons p ps ih => exact (s.raise_spares p.1 p.2).trans (ih _)

theorem onTrails_spares (s : State) (f : Quench → Quench) : Spares s (s.onTrails f) := by
  have asked : Spares s (s.onQuench f) := .of_blocks rfl rfl rfl rfl
  exact asked.trans (State.raiseIf_spares _ _ _ _ _)

/-! ### Activations and ends of steps and scans (R25, R33, R35, R43 to R46) -/

theorem runoutMotion_spares (s : State) (returning : Bool) : Spares s (s.runoutMotion returning) := by
  by_cases hs : s.seq.state = .runout
  · rcases s.runoutMotion_cases returning hs with ⟨e, _⟩ | ⟨e, _⟩ | ⟨e, _⟩ <;> rw [e]
    · refine .of_moved (by simp [hs]) (by simp [hs]) (by simp) (.inl ?_)
      rw [State.runoutComplete_zones, Zones.counted_close]
    · exact .onTravel s _
    · exact .onTravel s _
  · rw [s.runoutMotion_other _ hs]
    exact .refl s

theorem runoutEntry_spares (s : State) (c : EndCause) (stop : Option Int) :
    Spares s (s.runoutEntry c stop) := by
  have start : Spares s (s.runoutStart c) := .of_off rfl (.inr s.zones.counted_noZone)
  rw [State.runoutEntry_eq]
  exact (start.trans (State.onTrails_spares _ _)).trans (State.runoutMotion_spares _ _)

theorem vacantCheck_spares (s : State) : Spares s s.vacantCheck := by
  unfold State.vacantCheck
  split
  · split_ifs
    · exact s.runoutEntry_spares _ _
    · exact .refl s
    · exact s.runoutEntry_spares _ _
    · exact .refl s
  · exact .refl s

theorem handZones_spares (s : State) (a : Admitted) : Spares s (s.handZones a) := by
  refine ⟨fun h => h.of_same (by simp) (by simp) (by simp) (by simp) (by simp) (by simp), .inr ?_⟩
  unfold State.handZones
  dsimp only
  split
  · rw [State.onZones_zones, Zones.counted_warnFlag, State.onZones_zones, Zones.counted_activated]
  · rw [State.onZones_zones, Zones.counted_activated]

theorem handQuench_spares (s : State) (a : Admitted) : Spares s (s.handQuench a) := by
  unfold State.handQuench
  dsimp only
  split
  · exact s.onTrails_spares _
  · exact s.onTrails_spares _
  · exact .of_blocks rfl rfl rfl rfl
  · exact .refl s

theorem activate_spares (s : State) (a : Admitted) : Spares s (s.activate a) := by
  have taken : Spares s ((s.onSeq (·.activated a)).sendMarks a.marks) :=
    .of_blocks (by simp) (by simp) (by simp [Seq.activated_eq]) (by simp)
  have travels : ∀ u : State, Spares u (u.handTravel a) := fun u => by
    obtain ⟨seq, _⟩ := u.handTravel_spec a
    exact .of_blocks (by simp) (by simp) (by rw [seq]) (by simp)
  have spins : ∀ u : State, Spares u (u.handSpindle a) :=
    fun u => .of_blocks (by simp) (by simp) (by simp) (by simp)
  exact (((taken.trans (travels _)).trans (State.handZones_spares _ a)).trans (spins _)).trans
    (State.handQuench_spares _ a)

theorem proceed_spares (s : State) : Spares s s.proceed := by
  unfold State.proceed
  split
  · split
    · split
      · exact .onTravel s _
      · exact .of_blocks rfl rfl rfl rfl
    · exact s.activate_spares _
  · exact .onTravel s _

theorem clearActive_spares (s : State) (a : Admitted) : Spares s (s.clearActive a) := by
  unfold State.clearActive
  dsimp only
  split <;> exact ⟨fun h => h.of_same rfl rfl rfl rfl rfl rfl, .inr (Zones.counted_noZone _)⟩

theorem stepEnd_spares (s : State) : Spares s s.stepEnd := by
  unfold State.stepEnd
  split
  · exact .refl s
  · have cleared := s.clearActive_spares ‹_›
    dsimp only
    split_ifs
    · exact cleared.trans (State.proceed_spares _)
    · exact cleared.trans (State.runoutEntry_spares _ _ _)
    · exact cleared.trans (State.runoutEntry_spares _ _ _)
    · exact cleared.trans (.onTravel _ _)
    · exact cleared.trans (State.runoutEntry_spares _ _ _)

theorem exitPrestart_spares (s : State) (c : EndCause) : Spares s (s.exitPrestart c) :=
  .of_off (s.exitPrestart_power c) (.inl (by rw [State.exitPrestart_zones, Zones.counted_close]))

/-! ### The rest of a position sample (R48, R51 to R65) -/

/-- A test of the carriage: its condition, and the raise when it has become present (R130). -/
theorem test_spares (s : State) (f : Travel → Travel) (was now : Bool) (src : Source) :
    Spares s ((s.onTravel f).raiseIf was now src) :=
  (Spares.onTravel s f).trans (State.raiseIf_spares _ _ _ _ _)

theorem testLimits_spares (s : State) (r : Reading) : Spares s (s.testLimits r) := by
  have soft : ∀ u : State, Spares u u.testSoft := fun u => u.test_spares _ _ _ _
  have low : ∀ (u : State) b, Spares u (u.testLow b) := fun u b => u.test_spares _ _ _ _
  have high : ∀ (u : State) b, Spares u (u.testHigh b) := fun u b => u.test_spares _ _ _ _
  have encoder : ∀ (u : State) b, Spares u (u.testEncoder b) := fun u b => u.test_spares _ _ _ _
  have follow : ∀ u : State, Spares u u.testFollow := fun u => u.test_spares _ _ _ _
  exact ((((soft s).trans (low _ _)).trans (high _ _)).trans (encoder _ _)).trans (follow _)

/-- Orders to the generator alone. -/
theorem Ordered.spares {s u : State} (h : s.Ordered u) : Spares s u := by
  obtain ⟨x, rfl, _⟩ := h
  exact .of_blocks rfl rfl rfl rfl

theorem modeTested_spares (s : State) (r : Reading) : Spares s (s.modeTested r) := by
  have tested := ((s.seekSample_ordered r.refSwitch).trans (State.arrivalSample_ordered _)).spares
  unfold State.modeTested State.scanSample
  split
  · exact tested.trans (State.stepEnd_spares _)
  · exact tested.trans (State.brakeSample_ordered _).spares

/-- Behind a sample's own part its tests, its step end and the advance count nothing. -/
theorem positionSample_spares (s : State) (r : Reading) : Spares (s.sampledPart r) (s.positionSample r) := by
  rw [positionSample_eq]
  exact (((s.sampledPart r).testLimits_spares r).trans (State.modeTested_spares _ r)).trans (.onTravel _ _)

end State

end Sys2Proof.Machine

namespace Sys2Proof.Machine

namespace State

/-! ### Requests -/

theorem answer_spares (s : State) (kind tag : Byte) (a : Answer) : Spares s (s.answer kind tag a) :=
  .of_blocks rfl rfl rfl rfl

/-- A change of state with its notice, from one outside PRESTART and RUNNING. -/
theorem enter_spares (s : State) (st : SeqState) (c : Cause) (hp : s.seq.state ≠ .prestart)
    (hr : s.seq.state ≠ .running) : Spares s (s.enter st c) :=
  .of_moved hp hr rfl (.inr rfl)

/-- The two states of rest are none of a scan (R193). -/
theorem rest_away {s : State} (h : s.seq.state.isRest = true) :
    s.seq.state ≠ .prestart ∧ s.seq.state ≠ .running := by
  rcases (SeqState.isRest_iff _).1 h with e | e <;> rw [e] <;> exact ⟨nofun, nofun⟩

theorem serveHome_spares (s : State) (tag : Byte) : Spares s (s.serveHome tag) := by
  unfold State.serveHome State.homeAnswer
  by_cases hr : s.seq.state.isRest = true
  · simp only [hr, if_true]
    obtain ⟨hp, hrun⟩ := rest_away hr
    exact .of_moved hp hrun rfl (.inr rfl)
  · simp only [hr, Bool.false_eq_true, if_false, reduceCtorEq]
    exact s.answer_spares _ _ _

theorem serveMoveTo_spares (s : State) (tag : Byte) (p : Int) (v : Nat) : Spares s (s.serveMoveTo tag p v) := by
  unfold State.serveMoveTo
  dsimp only
  split
  · rename_i hok
    have idle : s.seq.state = .idle := by
      unfold State.moveToAnswer at hok
      split_ifs at hok with _ hs
      exact not_not.1 hs
    exact .of_moved (by rw [idle]; nofun) (by rw [idle]; nofun) rfl (.inr rfl)
  · exact s.answer_spares _ _ _

theorem stopEffect_spares (s : State) : Spares s s.stopEffect := by
  unfold State.stopEffect
  split
  case h_1 => exact s.exitPrestart_spares _
  case h_2 => exact s.runoutEntry_spares _ _
  case h_3 | h_4 => exact .of_blocks rfl rfl rfl rfl
  all_goals exact .refl s

theorem sourceHead_spares (s : State) : Spares s s.sourceHead := by
  unfold State.sourceHead
  split
  · dsimp only
    split
    · exact .of_blocks rfl rfl rfl rfl
    · unfold State.resumeLoader
      split
      · split <;> exact .of_blocks rfl rfl rfl rfl
      · exact .of_blocks rfl rfl rfl rfl
    · exact .of_blocks rfl rfl rfl rfl
    · exact .refl s
  · exact .refl s

theorem acceptStep_spares (s : State) (step : ScanStep) : Spares s (s.acceptStep step) := by
  have joins : Spares s (s.joined step) := .of_blocks rfl rfl rfl rfl
  have spins : ∀ u : State, Spares u (u.chooseSpin step) := fun u => by
    unfold State.chooseSpin
    split
    · split
      · exact .of_blocks rfl rfl rfl rfl
      · exact .refl u
    · exact .refl u
  rw [State.acceptStep_eq]
  exact ((joins.trans (spins _)).trans (State.sourceHead_spares _)).trans (State.vacantCheck_spares _)

theorem serveStep_spares (s : State) (tag : Byte) (r : StepRecord) : Spares s (s.serveStep tag r) := by
  have told := s.answer_spares 0x09#8 tag (s.stepAnswer r)
  unfold State.serveStep
  dsimp only
  split
  · split
    · exact told.trans (State.acceptStep_spares _ _)
    · exact told
  · exact told

theorem transfer_state (q : Seq) : q.transfer.state = q.state := by
  unfold Seq.transfer
  split <;> rfl

theorem serveTrim_spares (s : State) (tag : Byte) (t sp m : Nat) : Spares s (s.serveTrim tag t sp m) := by
  have retrims : ∀ u : State, Spares u u.retrim := fun u => by
    unfold State.retrim
    split
    · split
      · exact .of_blocks rfl rfl rfl rfl
      · exact .refl u
    · exact .refl u
  unfold State.serveTrim State.trimEffect
  dsimp only
  split
  · have written : ∀ q, Spares s ((s.answer 0x0A#8 tag (s.trimAnswer t sp m, [])).onSeq
        fun x => { x with shadow := q }) := fun q => .of_blocks rfl rfl rfl rfl
    have transfers : ∀ u : State, Spares u (u.onSeq Seq.transfer) :=
      fun u => .of_blocks rfl rfl (transfer_state u.seq) rfl
    split
    · exact ((written _).trans (transfers _)).trans (retrims _)
    · exact written _
  · exact s.answer_spares _ _ _

theorem serveClearTrip_spares (s : State) (tag : Byte) : Spares s (s.serveClearTrip tag) := by
  unfold State.serveClearTrip
  dsimp only
  split
  · rename_i hok
    have tripped : s.seq.state = .tripped := by
      unfold State.clearAnswer at hok
      split_ifs at hok with hs
      exact not_not.1 hs
    exact .of_moved (by rw [tripped]; nofun) (by rw [tripped]; nofun) rfl (.inr rfl)
  · exact s.answer_spares _ _ _

theorem serveOpen_spares (s : State) (tag : Byte) (p z n k : Nat) (g : Tag8) :
    Spares s (s.serveOpen tag p z n k g) := by
  unfold State.serveOpen
  dsimp only
  split <;> exact .of_blocks rfl rfl rfl rfl

theorem serveData_spares (s : State) (tag : Byte) (p : Nat) (rs : List DataRecord) :
    Spares s (s.serveData tag p rs) := by
  unfold State.serveData
  dsimp only
  split <;> exact .of_blocks rfl rfl rfl rfl

theorem serveClose_spares (s : State) (tag : Byte) (p : Nat) : Spares s (s.serveClose tag p) := by
  unfold State.serveClose
  dsimp only
  split <;> exact .of_blocks rfl rfl rfl rfl

theorem serveErase_spares (s : State) (tag : Byte) (p : Nat) : Spares s (s.serveErase tag p) := by
  unfold State.serveErase
  dsimp only
  split <;> exact .of_blocks rfl rfl rfl rfl

/-- A release takes a closed record (R167). -/
theorem serveRelease_spares (s : State) (tag : Byte) (n : Nat) : Spares s (s.serveRelease tag n) := by
  unfold State.serveRelease
  dsimp only
  split
  · exact ⟨fun h => h.of_same rfl rfl rfl rfl rfl rfl, .inr rfl⟩
  · exact s.answer_spares _ _ _

/-! ### The part's own steps, timers and conversions -/

theorem admission_spares (s : State) : Spares s s.admission := by
  have falls : ∀ u : State, Spares u u.flowFall := fun u => by
    unfold State.flowFall
    split
    · exact .of_blocks rfl rfl rfl rfl
    · exact .refl u
  have fills : ∀ q, q.state = s.seq.state → Spares s (s.onSeq fun _ => q).flowFall.sourceHead :=
    fun q hq => (State.sourceHead_spares _).behind ((falls _).behind (.of_blocks rfl rfl hq rfl))
  unfold State.admission
  split
  · split
    · rename_i q rest _
      dsimp only
      split
      · have filled := fills { s.seq with
          queue := rest, next := some (s.admitStep q), nominal := (s.admitStep q).stop
          passDir := if s.seq.passDir.isNone then (s.admitStep q).dir else s.seq.passDir } rfl
        split
        · exact filled.trans (State.proceed_spares _)
        · exact filled
      · unfold State.programError
        split
        · exact s.exitPrestart_spares _
        · exact s.runoutEntry_spares _ _
    · exact .refl s
  · exact .refl s

theorem loaderAppend_spares (s : State) : Spares s s.loaderAppend := by
  unfold State.loaderAppend
  split
  · split
    · split
      · exact (State.vacantCheck_spares _).behind
          ((State.sourceHead_spares _).behind (.of_blocks rfl rfl rfl rfl))
      · exact .refl s
    · exact .refl s
  · exact .refl s

/-- From PRESTART to RUNNING the output is still 0 (R25, R74). -/
theorem runs_spares (s : State) (hs : s.seq.state = .prestart) :
    Spares s ((s.onSeq ({ · with prestartTimer := none })).enter .running .ready) := by
  refine ⟨fun h => ?_, .inr rfl⟩
  obtain ⟨low, high, rated, code, out, _⟩ := h
  exact ⟨low, high, rated, code, fun _ => out (by rw [hs]; nofun), fun _ => .inr rfl⟩

theorem enterRunning_spares (s : State) : Spares s s.enterRunning := by
  unfold State.enterRunning
  split
  · rename_i hd
    exact ((s.runs_spares ((s.runningDue_iff).1 hd).1).trans (State.proceed_spares _)).trans
      (State.vacantCheck_spares _)
  · exact .refl s

theorem stepTick_spares (s : State) : Spares s s.stepTick := by
  have counted : Spares s (s.onSeq fun q => { q with scanClock := q.scanClock.map (· + 1) }) :=
    .of_blocks rfl rfl rfl rfl
  unfold State.stepTick
  dsimp only
  split
  · exact counted
  · split
    · exact counted.trans (State.stepEnd_spares _)
    · exact .of_blocks rfl rfl rfl rfl

theorem floodExpired_spares (s : State) : Spares s s.floodExpired := by
  unfold State.floodExpired
  split
  · dsimp only
    split
    · exact (State.tripProgress_spares _).behind (.of_blocks rfl rfl rfl rfl)
    · exact .of_blocks rfl rfl rfl rfl
  · exact .refl s

theorem coilWaterExpired_spares (s : State) : Spares s s.coilWaterExpired := by
  unfold State.coilWaterExpired
  split
  · exact (State.raiseIf_spares _ _ _ _ _).behind (.of_blocks rfl rfl rfl rfl)
  · exact .refl s

theorem lowCountReached_spares (s : State) : Spares s s.lowCountReached := by
  unfold State.lowCountReached
  split
  · exact (Spares.onTravel s _).trans (State.raise_spares _ _ _)
  · exact .refl s

/-- The lines of the inverter change no output, code or enable (R84). -/
theorem readyChange_spares (s : State) (level : Bool) : Spares s (s.readyChange level) := by
  have seen : Spares s ((s.onInputs ({ · with ready := level })).onPower fun p =>
      { p with readySeen := p.readySeen || (p.enable && level) }) :=
    ⟨fun h => h.of_same rfl rfl rfl rfl rfl rfl, .inr rfl⟩
  exact seen.trans (State.raiseIf_spares _ _ _ _ _)

/-- An input change and the raise of its source (R61, R85, R134). -/
theorem inputs_spares (s : State) (f : Inputs → Inputs) (was now : Bool) (src : Source) :
    Spares s ((s.onInputs f).raiseIf was now src) := by
  have changed : Spares s (s.onInputs f) := .of_blocks rfl rfl rfl rfl
  exact changed.trans (State.raiseIf_spares _ _ _ _ _)

theorem encoderChange_spares (s : State) (level : Bool) : Spares s (s.encoderChange level) := by
  have changed : Spares s (s.onInputs ({ · with encoder := level })) := .of_blocks rfl rfl rfl rfl
  exact changed.trans (State.test_spares _ _ _ _ _)

/-- The owners' tests of published values (R86, R87, R104, R108, R132, R133). -/
theorem publish_spares (s : State) (c : Channel) (v : Int) : Spares s (s.publish c v) := by
  have tests : ∀ (u : State) was now src, Spares s u → Spares s (u.raiseIf was now src) :=
    fun u was now src h => h.trans (u.raiseIf_spares _ _ _ _)
  cases c
  case coilI => exact tests _ _ _ _ ⟨fun h => h.of_same rfl rfl rfl rfl rfl rfl, .inr rfl⟩
  case pyro => exact tests _ _ _ _ ⟨fun h => h.of_same rfl rfl rfl rfl rfl rfl, .inr rfl⟩
  case qTemp => exact tests _ _ _ _ (.of_blocks rfl rfl rfl rfl)
  case qPress =>
    show Spares s (s.takePressure v)
    unfold State.takePressure
    dsimp only
    split
    · exact .refl s
    · exact (State.vacantCheck_spares _).behind (.of_blocks rfl rfl rfl rfl)
  all_goals exact .of_blocks rfl rfl rfl rfl

theorem conversionComplete_spares (s : State) (code : Nat) : Spares s (s.conversionComplete code) := by
  have channel : ∀ (u : State) c f, Spares u (u.onChannel c f) := fun u c f => .of_blocks rfl rfl rfl rfl
  have result : ∀ (u : State) b, Spares u (u.burstResult b) := fun u b => by
    unfold State.burstResult
    split
    · split
      · exact (channel u _ _).trans (State.publish_spares _ _ _)
      · unfold State.faultedSample
        dsimp only
        split
        · exact ((channel u _ _).trans (State.publish_spares _ _ _)).trans (State.raiseIf_spares _ _ _ _ _)
        · exact (channel u _ _).trans (State.raiseIf_spares _ _ _ _ _)
    · exact channel u _ _
  unfold State.conversionComplete
  split
  · exact .refl s
  · dsimp only
    split
    · have free : Spares s (s.onMeas ({ · with converter := none })) := .of_blocks rfl rfl rfl rfl
      exact (free.trans (result _ _)).trans (.of_blocks rfl rfl rfl rfl)
    · exact .of_blocks rfl rfl rfl rfl

theorem trippingStopped_spares (s : State) : Spares s s.trippingStopped := by
  unfold State.trippingStopped
  split
  · exact .onTravel s _
  · exact (State.tripProgress_spares _).behind (.of_blocks rfl rfl rfl rfl)

theorem homingEnd_spares (s : State) (hs : s.seq.state = .homing) : Spares s s.homingEnd := by
  unfold State.homingEnd
  split
  · exact .of_moved (by rw [hs]; nofun) (by rw [hs]; nofun) rfl (.inr rfl)
  · exact .of_moved (by rw [hs]; nofun) (by rw [hs]; nofun) rfl (.inr rfl)

theorem stoppingComplete_spares (s : State) : Spares s s.stoppingComplete := by
  have held : Spares s (s.onTravel Travel.orderHold) := .onTravel s _
  unfold State.stoppingComplete
  split
  · dsimp only
    split
    case h_1 hs => exact held.trans (State.homingEnd_spares _ hs)
    case h_2 hs => exact held.trans (State.enter_spares _ _ _ (by simp [hs]) (by simp [hs]))
    case h_3 =>
      split
      · unfold State.beginReturn
        split
        · exact .of_blocks rfl rfl rfl rfl
        · exact held
      · exact held
    case h_4 hs =>
      split
      · refine held.trans (.of_moved (by simp [hs]) (by simp [hs]) (State.runoutComplete_power _) (.inl ?_))
        rw [State.runoutComplete_zones, Zones.counted_close]
      · exact held.trans (.onTravel _ _)
    case h_5 => exact held.trans (State.trippingStopped_spares _)
    all_goals exact held
  · exact .refl s

theorem arrived_spares (s : State) : Spares s s.arrived := by
  unfold State.arrived
  split
  · rename_i h
    obtain ⟨_, hs, _⟩ := h
    split
    · exact .of_moved (by rw [hs]; nofun) (by rw [hs]; nofun) rfl (.inr rfl)
    · exact .refl s
  · exact .refl s

theorem returned_spares (s : State) : Spares s s.returned := by
  unfold State.returned
  split
  · split
    · exact s.activate_spares _
    · exact .refl s
  · exact .refl s

theorem turnStoppedActivation_spares (s : State) : Spares s s.turnStoppedActivation := by
  unfold State.turnStoppedActivation
  split
  · split
    · exact s.activate_spares _
    · exact .refl s
  · exact .refl s

theorem prestartTimeout_spares (s : State) : Spares s s.prestartTimeout := by
  unfold State.prestartTimeout
  split
  · exact s.exitPrestart_spares _
  · exact .refl s

end State

namespace PowerInv

theorem answer {s : State} (h : PowerInv s) (kind tag : Byte) (a : Answer) :
    PowerInv (s.answer kind tag a) := (s.answer_spares kind tag a).power h

/-- A configuration group is written in IDLE and UNREFERENCED alone, where output, code and enable are off (R193). -/
theorem serveConfig {α : Type} {s : State} (h : PowerInv s) (tag : Byte) (want : Nat) (items : List Int)
    (read : Option α) (write : α → State → State)
    (hw : ∀ c u, PowerInv u → u.seq.state.isRest = true → PowerInv (write c u)) :
    PowerInv (s.serveConfig tag want items read write) := by
  unfold State.serveConfig
  dsimp only
  split
  · split
    · rename_i hok
      refine hw _ _ (h.answer _ _ _) ?_
      unfold State.configAnswer at hok
      split_ifs at hok with _ hrest
      simpa using hrest
    · exact h.answer _ _ _
  · exact h.answer _ _ _

/-- A group written at rest keeps the bounds, whatever it holds. -/
theorem onCfg {u : State} (h : PowerInv u) (hr : u.seq.state.isRest = true) (f : ConfigGroups → ConfigGroups) :
    PowerInv (u.onCfg f) := h.moved (State.rest_away hr).1 (State.rest_away hr).2 rfl

/-- The Power Unit behind RESTART and RESET is at its reset values (R91). -/
theorem of_reset {t : State} (h : t.power = .reset) : PowerInv t := by
  refine .of_isOff ?_ ?_ <;> rw [h]
  · exact ⟨by decide, by decide⟩
  · exact ⟨rfl, rfl, rfl⟩

theorem serveRestart {s : State} (h : PowerInv s) (tag : Byte) : PowerInv (s.serveRestart tag) := by
  unfold State.serveRestart
  dsimp only
  split
  · exact (State.raisePresent_spares _ _).power (of_reset rfl)
  · exact h.answer _ _ _

/-- An accepted START finds the output 0 and begins with the accumulator at 0 and the enable on (R24, R83). -/
theorem acceptStart {s : State} (h : PowerInv s) (p : StartPlan) (hs : s.seq.state = .idle) :
    PowerInv (s.acceptStart p) := by
  obtain ⟨_, _, _, code, out, _⟩ := h
  have zero : s.power.pOut = 0 := out (by rw [hs]; nofun)
  rw [State.acceptStart_eq]
  exact ⟨by simp [StartedScan], by simp [StartedScan], by simp [StartedScan, zero], code, fun _ => zero,
    fun _ => .inl rfl⟩

theorem start {s : State} (h : PowerInv s) (kind tag : Byte) (third : Option ResultCode)
    (p : StartPlan) (ht : third ≠ some .ok) :
    PowerInv (if (s.startReply third).1 = .ok then
        (s.answer kind tag (s.startReply third)).acceptStart p
      else s.answer kind tag (s.startReply third)) := by
  split
  · rename_i hok
    exact acceptStart (h.answer _ _ _) p (s.startAnswer_ok third hok ht).1
  · exact h.answer _ _ _

/-- INHIBIT leaves the enable, and its zero order an output of 0 (R70). -/
theorem serveInhibitOn {s : State} (h : PowerInv s) (tag : Byte) : PowerInv (s.serveInhibitOn tag) := by
  obtain ⟨low, high, rated, code, out, enable⟩ := h
  unfold State.serveInhibitOn
  cases hi : s.power.inhibit
  · refine ⟨?_, ?_, ?_, ?_, fun _ => ?_, ?_⟩ <;> simp [State.answer, hi, Power.zero, low, high]
    exact enable
  · refine PowerInv.of_same ⟨low, high, rated, code, out, enable⟩ ?_ ?_ ?_ ?_ rfl rfl <;>
      simp [State.answer, hi]

/-- Serving a request that has been taken (R188). -/
theorem serve {s : State} (h : PowerInv s) (tag : Byte) (r : Request) : PowerInv (s.serve tag r) := by
  have written : ∀ (want : Nat) (items : List Int) {α : Type} (read : Option α)
      (f : α → ConfigGroups → ConfigGroups),
      PowerInv (s.serveConfig tag want items read fun c t => t.onCfg (f c)) :=
    fun want items _ read f => h.serveConfig tag want items read _ fun _ _ hu hr => hu.onCfg hr _
  cases r
  case configureMachine xs => exact written 13 xs _ _
  case configureQuench xs => exact written 13 xs _ _
  case configureMeasure xs =>
    refine h.serveConfig tag 49 xs _ _ fun c u hu hr => ?_
    exact (hu.onCfg hr ({ · with measure := c })).of_same rfl rfl rfl rfl rfl rfl
  case configureTrip xs =>
    refine h.serveConfig tag 25 xs _ _ fun c u hu hr => ?_
    exact (State.raisePresent_spares _ _).power (hu.onCfg hr ({ · with trip := c }))
  case configureFlow xs => exact written 2 xs _ _
  case configurePrestart xs => exact written 1 xs _ _
  case restart => exact h.serveRestart tag
  case home => exact (s.serveHome_spares tag).power h
  case moveTo p v => exact (s.serveMoveTo_spares tag p v).power h
  case stop => exact (State.stopEffect_spares _).power (h.answer _ _ _)
  case startProfile p g =>
    refine h.start _ tag _ _ ?_
    unfold State.profileCheck
    split <;> nofun
  case startStream g ws =>
    refine h.start _ tag _ _ ?_
    unfold streamCheck
    split <;> nofun
  case step r => exact (s.serveStep_spares tag r).power h
  case trim t sp m => exact (s.serveTrim_spares tag t sp m).power h
  case inhibitOn => exact h.serveInhibitOn tag
  case inhibitOff => exact h.of_same rfl rfl rfl rfl rfl rfl
  case forceTrip => exact (State.raise_spares _ _ _).power (h.answer _ _ _)
  case clearTrip => exact (s.serveClearTrip_spares tag).power h
  case status => exact h.answer _ _ _
  case profileList => exact h.answer _ _ _
  case recordGet n => exact h.answer _ _ _
  case profileOpen p z n k g => exact (s.serveOpen_spares tag p z n k g).power h
  case profileData p rs => exact (s.serveData_spares tag p rs).power h
  case profileClose p => exact (s.serveClose_spares tag p).power h
  case profileErase p => exact (s.serveErase_spares tag p).power h
  case recordRelease n => exact (s.serveRelease_spares tag n).power h

theorem request {s : State} (h : PowerInv s) (tag : Byte) (r : Request) :
    PowerInv (s.request tag r (·.serve tag r)) := by
  unfold State.request
  split_ifs
  · exact h
  · exact h.serve tag r
  · exact h.of_same rfl rfl rfl rfl rfl rfl

theorem dispatch {s : State} (h : PowerInv s) : PowerInv s.dispatch := by
  unfold State.dispatch
  split
  · exact h
  · rename_i r rest _
    have taken : PowerInv (s.onLink ({ · with rxBuffer := rest })) := h.of_same rfl rfl rfl rfl rfl rfl
    split
    · dsimp only
      split
      · exact taken.answer _ _ _
      · exact taken.answer _ _ _
      · exact taken.serve _ _
    · exact h

/-- An update keeps the clamp of its stage 1 and the rated power of its ceiling, and is 0 outside RUNNING (R73, R74, R78, R82). -/
theorem powerUpdate {s : State} (h : PowerInv s) : PowerInv s.powerUpdate := by
  obtain ⟨low, high, _, _, _, enable⟩ := h
  have clamp : -12800 ≤ s.updateResult.acc ∧ s.updateResult.acc ≤ 12800 := by
    rw [s.updateResult_acc]
    split
    · exact ⟨low, high⟩
    · unfold State.correctedAcc
      rcases stage1_cases s.power (floorPower s.cfg.machine) (s.seq.state == .running) s.fitMeas with
        e | ⟨m, e⟩ <;> rw [e]
      · exact ⟨low, high⟩
      · exact clampInt_bounds _ _ _ (by decide)
  refine ⟨clamp.1, clamp.2, ?_, rfl, fun hr => ?_, enable⟩
  · refine s.updateResult_bounds.1.trans ?_
    rw [s.pMax_eq]
    exact Nat.min_le_left _ _
  · have idle : s.baseDemand = none := s.baseDemand_none_iff.2 (if_neg hr)
    show s.updateResult.pOut = 0
    rcases s.updateResult_cases with ⟨_, e⟩ | ⟨_, _, e⟩ | ⟨_, _, hb, _⟩
    · rw [e]; rfl
    · rw [e]; rfl
    · rw [idle] at hb
      cases hb

/-- A sample's own part orders no output (R48). -/
theorem sampledPart {s : State} (h : PowerInv s) (r : Reading) : PowerInv (s.sampledPart r) := by
  obtain ⟨z, t, e, _⟩ := s.sampledPart_spec r
  rw [e]
  refine h.of_same rfl rfl rfl rfl rfl ?_
  dsimp only
  split <;> rfl

/-- A lost flow is its raise (R104, R105, R107). -/
theorem flowLost {s : State} (h : PowerInv s) (k : Circuit) : PowerInv (s.flowLost k) := by
  obtain ⟨z, e, _⟩ := s.flowLost_eq k
  rw [e]
  exact (State.raise_spares _ _ _).power (h.of_same rfl rfl rfl rfl rfl rfl)

/-- A watch timer's expiry where it runs. -/
theorem watchExpiry {s : State} (h : PowerInv s) (k : Circuit) (p : Prop) [Decidable p] :
    PowerInv (if p then s.flowLost k else s) := by
  split
  · exact h.flowLost k
  · exact h

/-- Every command keeps the power bounds. -/
theorem exec {s t : State} (h : PowerInv s) (c : Instr) (e : Machine.exec c s = .next t) : PowerInv t := by
  cases hr : c.request with
  | some p =>
    rw [exec_request c p.1 p.2 s hr] at e
    cases e
    exact h.request _ _
  | none =>
    cases c
    case reset => cases e; exact (State.raisePresent_spares _ _).power (of_reset rfl)
    case frameReceived => cases e; exact h.of_same rfl rfl rfl rfl rfl rfl
    case receiveGapTimeout => cases e; exact h.of_same rfl rfl rfl rfl rfl rfl
    case byteReceived b => cases e; exact h.of_same rfl rfl rfl rfl rfl rfl
    case dispatch => cases e; exact h.dispatch
    case frameSent =>
      cases e
      unfold State.frameSent
      split
      · exact h.of_same rfl rfl rfl rfl rfl rfl
      · exact h
    case positionSample counts rpm a b d => cases e; exact (s.positionSample_spares _).power (h.sampledPart _)
    case powerUpdate => cases e; exact h.powerUpdate
    case stepTimerExpiry => cases e; exact s.stepTick_spares.power h
    case prestartTimeout => cases e; exact s.prestartTimeout_spares.power h
    case requestTimerExpiry ch => cases e; exact h.of_same rfl rfl rfl rfl rfl rfl
    case conversionComplete code => cases e; exact (s.conversionComplete_spares code).power h
    case calibrationTimerExpiry => cases e; exact h.of_same rfl rfl rfl rfl rfl rfl
    case provingTimerExpiry k => cases e; exact h.watchExpiry k _
    case dropoutTimerExpiry k => cases e; exact h.watchExpiry k _
    case floodTimerExpiry => cases e; exact s.floodExpired_spares.power h
    case pumpIdleTimerExpiry => cases e; exact h.of_same rfl rfl rfl rfl rfl rfl
    case coilWaterTimerExpiry => cases e; exact s.coilWaterExpired_spares.power h
    case lowCountReached => cases e; exact s.lowCountReached_spares.power h
    case readyInputChange level => cases e; exact (s.readyChange_spares level).power h
    case faultInputChange level => cases e; exact (s.inputs_spares _ _ _ _).power h
    case emergencyStopInput level => cases e; exact (s.inputs_spares _ _ _ _).power h
    case encoderFaultInput level => cases e; exact (s.encoderChange_spares level).power h
    case stoppingComplete => cases e; exact s.stoppingComplete_spares.power h
    case arrived => cases e; exact s.arrived_spares.power h
    case returned => cases e; exact s.returned_spares.power h
    case turnStoppedActivation => cases e; exact s.turnStoppedActivation_spares.power h
    case enterRunning => cases e; exact s.enterRunning_spares.power h
    case admission => cases e; exact s.admission_spares.power h
    case loaderAppend => cases e; exact s.loaderAppend_spares.power h
    all_goals cases hr

end PowerInv

/-- Settles O7: a step is a command from a state that differs in the waiting commands alone, and every command keeps the bounds. -/
theorem powerBoundsKept : Obligations.PowerBoundsKept := by
  intro s t h e
  unfold step at e
  split at e
  · cases e
    exact h
  · rename_i c rest _
    have taken : PowerInv { s with pending := rest } := h
    exact taken.exec c e

end Sys2Proof.Machine

namespace Sys2Proof.Machine

/-! ### What a sample counts (R107, R157, R159) -/

/-- What a sample has measured. -/
def Readings.measured (r : Readings) : Int × Int × Nat := (r.position, r.speed, r.still)

/-- The tests of a sample leave what it measured. -/
theorem State.testLimits_measured (s : State) (r : Reading) :
    (s.testLimits r).travel.readings.measured = s.travel.readings.measured := by
  have soft : ∀ u : State, u.testSoft.travel.readings.measured = u.travel.readings.measured :=
    fun u => (congrArg Readings.measured u.readings_tests.1).trans rfl
  have low : ∀ (u : State) b, (u.testLow b).travel.readings.measured = u.travel.readings.measured :=
    fun u b => (congrArg Readings.measured (u.readings_tests.2.1 b)).trans rfl
  have high : ∀ (u : State) b, (u.testHigh b).travel.readings.measured = u.travel.readings.measured :=
    fun u b => (congrArg Readings.measured (u.readings_tests.2.2.1 b)).trans rfl
  have encoder : ∀ (u : State) b, (u.testEncoder b).travel.readings.measured = u.travel.readings.measured :=
    fun u b => (congrArg Readings.measured (u.readings_tests.2.2.2.1 b)).trans rfl
  have follow : ∀ u : State, u.testFollow.travel.readings.measured = u.travel.readings.measured :=
    fun u => (congrArg Readings.measured u.readings_tests.2.2.2.2).trans rfl
  exact (follow _).trans ((encoder _ _).trans ((high _ _).trans ((low _ _).trans (soft s))))

/-- A whole sample leaves what it measured (R48 to R50). -/
theorem State.positionSample_measured (s : State) (r : Reading) :
    (s.positionSample r).travel.readings.measured = (s.travel.measure r.counts).readings.measured := by
  obtain ⟨z, t, e, _, held⟩ := s.sampledPart_spec r
  rw [s.readings_positionSample r, State.testLimits_measured, e]
  exact congrArg Readings.measured held.readings

/-- Where the quench-short report of a ring is made behind a sample that found `x`: at the ring's spray position while its watch is LOW
behind the releases (R107). -/
def State.shortAt (s : State) (x : Travel) (k : Ring) : Option Int :=
  match s.seq.passDir with
  | some d =>
    if ((s.releasedAt x.position x.speed x.still).circuit.get k.circuit).watch = .low then
      some (x.position - d.sign * (s.cfg.quench.offset.get k : Int))
    else none
  | none => none

/-- A zone behind a quench-short report at a position, or none (R159). -/
def ZoneEntry.short (e : ZoneEntry) (p : Option Int) : ZoneEntry :=
  { e with acc := { e.acc with quenchShort := e.acc.quenchShort || p.any e.acc.covers } }

/-- The zones of the open record behind such a report. -/
def Zones.shortened (z : Zones) (p : Option Int) : Zones :=
  z.onOpen fun r => { r with zones := r.zones.map (·.short p) }

theorem Zones.shortened_none (z : Zones) : z.shortened none = z := by
  have same : ∀ e : ZoneEntry, e.short none = e := fun e => by simp [ZoneEntry.short]
  obtain ⟨closed, _ | r, next⟩ := z
  · rfl
  · simp [Zones.shortened, Zones.onOpen, same]

theorem OpenRecord.quenchShort_eq (r : OpenRecord) (pos : Int) :
    r.quenchShort pos = { r with zones := r.zones.map (·.short (some pos)) } := by
  have each : ∀ e : ZoneEntry, (if e.acc.covers pos then
      { e with acc := { e.acc with quenchShort := true } } else e) = e.short (some pos) := fun e => by
    cases h : e.acc.covers pos <;> simp [ZoneEntry.short, h]
  unfold OpenRecord.quenchShort
  simp only [each]

/-- The report of a ring in a state that holds the releases of a sample that found `x` (R107, R159). -/
theorem State.quenchShort_at (s w : State) (x : Travel) (k : Ring) (hdir : w.seq.passDir = s.seq.passDir)
    (hquench : w.quench = s.releasedAt x.position x.speed x.still)
    (hposition : w.travel.position = x.position) (hcfg : w.cfg = s.cfg) :
    w.quenchShort k = w.onZones (·.shortened (s.shortAt x k)) := by
  have quiet : w = w.onZones (·.shortened none) := by
    show w = { w with zones := w.zones.shortened none }
    rw [w.zones.shortened_none]
  unfold State.quenchShort State.shortAt Quench.flowLow
  rw [hdir, hquench, hposition, hcfg]
  cases s.seq.passDir with
  | none => exact quiet
  | some d =>
    dsimp only
    by_cases low : ((s.releasedAt x.position x.speed x.still).circuit.get k.circuit).watch = .low
    · rw [if_pos (beq_iff_eq.2 low), if_pos low]
      simp only [OpenRecord.quenchShort_eq]
      rfl
    · rw [if_neg (mt beq_iff_eq.1 low), if_neg low]
      exact quiet

/-- The releases of a sample and their report leave pass, position, configuration and records (R99, R100). -/
theorem State.releaseSample_kept (s : State) :
    s.releaseSample.seq.passDir = s.seq.passDir ∧
      s.releaseSample.quench = s.releasedAt s.travel.position s.travel.speed s.travel.still ∧
      s.releaseSample.travel.position = s.travel.position ∧ s.releaseSample.cfg = s.cfg ∧
      s.releaseSample.zones = s.zones := by
  have eq := s.releaseSample_eq
  dsimp only at eq
  rw [eq]
  split
  · rw [State.trailsEmptyReport_eq]
    refine ⟨?_, rfl, ?_, rfl, rfl⟩
    · dsimp only
      split <;> rfl
    · dsimp only
      split
      · exact s.travel.orders_measured.1.1
      · rfl
  · exact ⟨rfl, rfl, rfl, rfl, rfl⟩

/-- The records behind a sample's own part: the sample counted, then both rings' reports (R107, R157, log 8). -/
theorem State.sampledPart_zones (s : State) (r : Reading) :
    let x := s.travel.measure r.counts
    (s.sampledPart r).zones = ((s.zones.onOpen (·.sample (s.seq.state == .running) s.power.inhibit
      s.travel.position x.position)).shortened (s.shortAt x .q1)).shortened (s.shortAt x .q2) := by
  intro x
  obtain ⟨dir, quench, position, cfg, zones⟩ :=
    ((s.readSample r).countSample s.travel.position).releaseSample_kept
  unfold State.sampledPart State.quenchSample
  generalize ((s.readSample r).countSample s.travel.position).releaseSample = w at *
  have both : (w.quenchShort .q1).quenchShort .q2 =
      (w.onZones (·.shortened (s.shortAt x .q1))).onZones (·.shortened (s.shortAt x .q2)) := by
    rw [State.quenchShort_at s w x .q1 dir quench position cfg]
    exact State.quenchShort_at s _ x .q2 dir quench position cfg
  dsimp only
  rw [both]
  exact congrArg (fun z : Zones => (z.shortened (s.shortAt x .q1)).shortened (s.shortAt x .q2)) zones

/-- A zone entry behind the count of a sample: the distance under a HEAT step in RUNNING, to the current zone alone (R157). -/
def OpenRecord.sampleEntry (r : OpenRecord) (running inhibit : Bool) (before now : Int) (i : Nat)
    (e : ZoneEntry) : ZoneEntry :=
  if running = true ∧ r.current = some ⟨i, true⟩ then
    { e with acc := e.acc.sample before now (decide (0 < r.pOut) || inhibit) r.ceiling }
  else e

theorem OpenRecord.sample_zone (r : OpenRecord) (running inhibit : Bool) (before now : Int) (i : Nat) :
    (r.sample running inhibit before now).zones[i]? =
      r.zones[i]?.map (r.sampleEntry running inhibit before now i) := by
  have other : ¬(running = true ∧ r.current = some ⟨i, true⟩) →
      r.zones[i]? = r.zones[i]?.map (r.sampleEntry running inhibit before now i) := fun hn => by
    have same : r.sampleEntry running inhibit before now i = id := funext fun e => if_neg hn
    simp [same]
  unfold OpenRecord.sample
  split
  · rename_i z hc
    cases running
    · exact other (by simp)
    · show (r.zones.modify z _)[i]? = _
      rw [List.getElem?_modify]
      by_cases hz : z = i
      · subst hz
        have counts : r.sampleEntry true inhibit before now z = fun e =>
            { e with acc := e.acc.sample before now (decide (0 < r.pOut) || inhibit) r.ceiling } :=
          funext fun e => if_pos ⟨rfl, hc⟩
        rw [counts]
        simp
      · rw [← other (by simp [hc, hz])]
        simp [hz]
  · rename_i hn
    exact other fun h => hn i h.2

theorem OpenRecord.sample_length (r : OpenRecord) (running inhibit : Bool) (before now : Int) :
    (r.sample running inhibit before now).zones.length = r.zones.length := by
  unfold OpenRecord.sample
  split
  · split
    · exact List.length_modify ..
    · rfl
  · rfl

/-- Behind a whole sample each zone of a record still open is the one before it with the sample counted and both rings' reports made, but
for its WARN flag (R107, R157, R158, R159). -/
theorem State.positionSample_zones (s : State) (rd : Reading) {r r' : OpenRecord}
    (ho : s.zones.openRec = some r) (ho' : (s.positionSample rd).zones.openRec = some r') :
    let x := s.travel.measure rd.counts
    r'.zones.length = r.zones.length ∧ ∀ i : Nat,
      r'.zones[i]?.map ZoneEntry.unwarned = r.zones[i]?.map fun e =>
        (((r.sampleEntry (s.seq.state == .running) s.power.inhibit s.travel.position x.position i e).short
          (s.shortAt x .q1)).short (s.shortAt x .q2)).unwarned := by
  intro x
  have spared := (s.positionSample_spares rd).zones
  rw [s.sampledPart_zones rd] at spared
  simp only [Zones.counted, Zones.shortened, Zones.onOpen, ho, ho', Option.map_some, reduceCtorEq, false_or,
    Option.some.injEq] at spared
  refine ⟨by simpa [OpenRecord.sample_length] using congrArg List.length spared, fun i => ?_⟩
  have entry := congrArg (·[i]?) spared
  simp only [List.getElem?_map, OpenRecord.sample_zone, Option.map_map] at entry
  exact entry

/-- A ring's report flags exactly the zones whose extent holds its spray position (R159). -/
theorem State.shortAt_covers (s : State) (x : Travel) (k : Ring) (a : ZoneAcc) :
    (s.shortAt x k).any a.covers = true ↔ ∃ (d : Dir) (lo hi : Int), s.seq.passDir = some d ∧
      ((s.releasedAt x.position x.speed x.still).circuit.get k.circuit).watch = .low ∧
      a.extent = some (lo, hi) ∧ lo ≤ x.position - d.sign * (s.cfg.quench.offset.get k : Int) ∧
      x.position - d.sign * (s.cfg.quench.offset.get k : Int) ≤ hi := by
  unfold State.shortAt ZoneAcc.covers
  cases hd : s.seq.passDir with
  | none => simp
  | some d =>
    by_cases low : ((s.releasedAt x.position x.speed x.still).circuit.get k.circuit).watch = .low
    · obtain _ | ⟨lo, hi⟩ := a.extent <;> simp [low, and_assoc]
    · simp [low]

/-! ### Counting to the zone being heated (R88, R156, R157) -/

/-- The count of a sample, field by field (R157). -/
theorem OpenRecord.sampleEntry_acc (r : OpenRecord) (running inhibit : Bool) (before now : Int) (i : Nat)
    (e : ZoneEntry) :
    let counted := running = true ∧ r.current = some ⟨i, true⟩
    let heated := 0 < r.pOut ∨ inhibit = true
    let dist := (now - before).natAbs
    r.sampleEntry running inhibit before now i e = { e with acc := { e.acc with
      length := if counted ∧ heated then e.acc.length + dist else e.acc.length
      extent := if counted ∧ heated then widen e.acc.extent before now else e.acc.extent
      satDist := if counted ∧ r.ceiling = .saturated then e.acc.satDist + dist else e.acc.satDist
      limDist := if counted ∧ r.ceiling = .limited then e.acc.limDist + dist else e.acc.limDist } } := by
  intro counted heated dist
  unfold OpenRecord.sampleEntry
  by_cases h : running = true ∧ r.current = some ⟨i, true⟩
  · have hc : counted := h
    rw [if_pos h]
    simp [ZoneAcc.sample, hc, heated, dist]
  · have hc : ¬counted := h
    rw [if_neg h]
    simp [hc]

/-- A zone behind a whole sample, field by field, but for its WARN flag (R107, R157, R159, log 8). -/
theorem State.positionSample_entry (s : State) (rd : Reading) {r r' : OpenRecord}
    (ho : s.zones.openRec = some r) (ho' : (s.positionSample rd).zones.openRec = some r') {i : Nat}
    {e e' : ZoneEntry} (he : r.zones[i]? = some e) (he' : r'.zones[i]? = some e') :
    let x := s.travel.measure rd.counts
    let before := s.travel.position
    let dist := (x.position - before).natAbs
    let counted := s.seq.state = .running ∧ r.current = some ⟨i, true⟩
    let heated := 0 < r.pOut ∨ s.power.inhibit = true
    e'.window = e.window ∧ e'.acc.energy = e.acc.energy ∧ e'.acc.peak = e.acc.peak ∧
      (e'.acc.quenchShort = true ↔ e.acc.quenchShort = true ∨
        ∃ (d : Dir) (k : Ring) (lo hi : Int), s.seq.passDir = some d ∧
          ((s.releasedAt x.position x.speed x.still).circuit.get k.circuit).watch = .low ∧
          e'.acc.extent = some (lo, hi) ∧
          lo ≤ x.position - d.sign * (s.cfg.quench.offset.get k : Int) ∧
          x.position - d.sign * (s.cfg.quench.offset.get k : Int) ≤ hi) ∧
      e'.acc.maxTemp = e.acc.maxTemp ∧ e'.acc.saturated = e.acc.saturated ∧
      e'.acc.limited = e.acc.limited ∧
      e'.acc.length = (if counted ∧ heated then e.acc.length + dist else e.acc.length) ∧
      e'.acc.extent = (if counted ∧ heated then widen e.acc.extent before x.position else e.acc.extent) ∧
      e'.acc.satDist = (if counted ∧ r.ceiling = .saturated then e.acc.satDist + dist else e.acc.satDist) ∧
      e'.acc.limDist = (if counted ∧ r.ceiling = .limited then e.acc.limDist + dist else e.acc.limDist) := by
  intro x before dist counted heated
  have entry := (s.positionSample_zones rd ho ho').2 i
  rw [he, he', Option.map_some, Option.map_some, OpenRecord.sampleEntry_acc] at entry
  simp only [beq_iff_eq] at entry
  replace entry := Option.some.inj entry
  have extent : e'.acc.extent =
      (if counted ∧ heated then widen e.acc.extent before x.position else e.acc.extent) :=
    congrArg (·.acc.extent) entry
  have flag : e'.acc.quenchShort =
      ((e.acc.quenchShort || (s.shortAt x .q1).any _) || (s.shortAt x .q2).any _) :=
    congrArg (·.acc.quenchShort) entry
  have kept {α : Type} (f : ZoneEntry → α) := congrArg f entry
  refine ⟨kept (·.window), kept (·.acc.energy), kept (·.acc.peak), ?_, kept (·.acc.maxTemp),
    kept (·.acc.saturated), kept (·.acc.limited), kept (·.acc.length), extent, kept (·.acc.satDist),
    kept (·.acc.limDist)⟩
  rw [flag, Bool.or_eq_true, Bool.or_eq_true, State.shortAt_covers, State.shortAt_covers]
  constructor
  · rintro ((h | ⟨d, lo, hi, hd, hw, hx, hin⟩) | ⟨d, lo, hi, hd, hw, hx, hin⟩)
    · exact .inl h
    · exact .inr ⟨d, .q1, lo, hi, hd, hw, extent.trans hx, hin⟩
    · exact .inr ⟨d, .q2, lo, hi, hd, hw, extent.trans hx, hin⟩
  · rintro (h | ⟨d, k, lo, hi, hd, hw, hx, hin⟩)
    · exact .inl (.inl h)
    · cases k
      · exact .inl (.inr ⟨d, lo, hi, hd, hw, extent.symm.trans hx, hin⟩)
      · exact .inr ⟨d, lo, hi, hd, hw, extent.symm.trans hx, hin⟩

/-- The zones behind an update's report, one by one (R156). -/
theorem OpenRecord.reportedZones_counts (r : OpenRecord) (u : UpdateReport) (c : CurrentZone)
    (hc : r.current = some c) (i : Nat) (e : ZoneEntry) (he : r.zones[i]? = some e) :
    (r.reportedZones true false u)[i]? =
      some (if i = c.zone then { e with acc := e.acc.report u } else e) := by
  unfold OpenRecord.reportedZones
  rw [hc]
  show (r.zones.modify c.zone _)[i]? = _
  rw [List.getElem?_modify, he]
  by_cases h : c.zone = i
  · simp [h]
  · simp [h, Ne.symm h]

theorem OpenRecord.reportedZones_same (r : OpenRecord) (running inhibit : Bool) (u : UpdateReport)
    (h : r.current = none ∨ running = false ∨ inhibit = true) : r.reportedZones running inhibit u = r.zones := by
  unfold OpenRecord.reportedZones
  rcases h with h | h | h
  · rw [h]
  · subst h
    cases r.current <;> rfl
  · subst h
    cases r.current <;> cases running <;> rfl

/-- Settles O50: the zones of a sample entry by entry, and those of an update by its report. -/
theorem updateCountedToZone : Obligations.UpdateCountedToZone := by
  refine ⟨fun s t counts rpm ref low high r r' e ho ho' => ?_, fun s r ho => ?_⟩
  · cases e
    let rd : Reading := ⟨counts, rpm, ref, low, high⟩
    have measured := s.positionSample_measured rd
    have position : (s.positionSample rd).travel.position = (s.travel.measure rd.counts).position :=
      congrArg (·.1) measured
    have speed : (s.positionSample rd).travel.speed = (s.travel.measure rd.counts).speed :=
      congrArg (·.2.1) measured
    have still : (s.positionSample rd).travel.still = (s.travel.measure rd.counts).still :=
      congrArg (·.2.2) measured
    refine ⟨(s.positionSample_zones rd ho ho').1, fun i e e' he he' => ?_⟩
    have entry := s.positionSample_entry rd ho ho' he he'
    dsimp only at entry
    rw [← position, ← speed, ← still] at entry
    obtain ⟨window, energy, peak, short, temp, saturated, limited, length, extent, sat, lim⟩ := entry
    refine ⟨window, energy, peak, short, temp, saturated, limited, length, extent.trans ?_, sat, lim⟩
    cases e.acc.extent <;> rfl
  · intro pMeas
    let u := s.reportOf s.updateResult
    have opened : s.powerUpdate.zones.openRec =
        some (r.report (s.seq.state == .running) s.power.inhibit u) := by
      rw [State.powerUpdate_eq]
      simp [Zones.onOpen, ho, u]
    rw [OpenRecord.report_eq] at opened
    refine ⟨_, _, exec_powerUpdate s, opened, rfl, fun c hc running inhibit i e he => ?_, fun h => ?_⟩
    · show (r.reportedZones (s.seq.state == .running) s.power.inhibit u)[i]? = _
      rw [running, inhibit]
      exact r.reportedZones_counts u c hc i e he
    · refine r.reportedZones_same _ _ u ?_
      rcases h with h | h | h
      · exact .inl h
      · exact .inr (.inl (beq_eq_false_iff_ne.2 h))
      · exact .inr (.inr h)

end Sys2Proof.Machine

namespace Sys2Proof.Machine

/-! ### Further trips by what they leave (R138, R146, R147) -/

/-- The part with a source among the later causes of its trip record `r` (R138). -/
def State.alsoTripped (s : State) (r : TripRecord) (src : Source) : State :=
  { s with trip := { s.trip with record := some (r.also src) } }

/-- The orders of a HALT, block by block (R101, R143). -/
theorem State.haltOrders_eq (s : State) : s.haltOrders = s.halted := by
  have travel : s.haltOrders.travel = s.halted.travel := by
    rw [State.haltOrders_travel, Travel.setSpindle_eq]
    rfl
  exact State.eq_of_blocks rfl rfl travel rfl rfl rfl rfl rfl rfl rfl rfl rfl

/-- The orders of a STOP_FLOOD behind a zero order, block by block (R103, R142). -/
theorem State.stopFloodResponse_eq (s : State) : s.zeroOrder.stopFloodResponse = s.floodTaken := by
  have quench : s.zeroOrder.stopFloodResponse.quench = s.floodTaken.quench := by
    show (s.quench.floodOrder s.cfg.quench).discard false = _
    rw [Quench.floodOrder_eq]
    unfold State.floodTaken
    by_cases flows : s.quench.q3Owner = .flood <;>
      simp [Quench.discard, Quench.closeValve, PerCircuit.set, CircuitState.closed, flows]
  have travel : s.zeroOrder.stopFloodResponse.travel = s.floodTaken.travel := rfl
  exact State.eq_of_blocks rfl rfl travel rfl quench rfl rfl rfl rfl rfl rfl rfl

/-- The zero order and the orders of a HALT in TRIPPING, block by block (R143, R146). -/
theorem State.haltResponse_eq (s : State) : s.zeroOrder.haltResponse = { s.halted with
    power := s.power.off
    trip := { s.trip with
      response := some .halt, responseDone := false, trailsSeen := false, stoppedSeen := false,
      floodSeen := false } } :=
  (s.zeroOrder.respond .halt).haltOrders_eq

/-- A further trip in TRIPPING and in TRIPPED, from a part with a trip record (R138, R146, R147). -/
theorem State.furtherTrip_eq (s : State) (src : Source) {r : TripRecord} (hr : s.trip.record = some r) :
    (s.seq.state = .tripping → s.furtherTrip src =
      if s.cfg.trip.responseOf src = .halt then (s.alsoTripped r src).zeroOrder.haltResponse.tripProgress
      else if s.trip.response = some .runout then (s.alsoTripped r src).floodTaken
      else s.alsoTripped r src) ∧
    (s.seq.state = .tripped → s.furtherTrip src =
      if s.cfg.trip.responseOf src = .halt then (s.alsoTripped r src).halted else s.alsoTripped r src) := by
  have noted : s.onTrip (fun t => { t with record := t.record.map (·.further src) }) = s.alsoTripped r src := by
    have record : s.trip.record.map (·.further src) = some (r.also src) := by rw [hr]; rfl
    exact congrArg (fun x => { s with trip := { s.trip with record := x } }) record
  have floods : (s.alsoTripped r src).floodTaken.tripProgress = (s.alsoTripped r src).floodTaken :=
    State.tripProgress_floods _ rfl rfl
  unfold State.furtherTrip
  rw [noted]
  dsimp only
  rw [State.stopFloodResponse_eq, floods, State.haltOrders_eq]
  refine ⟨fun hs => ?_, fun hs => ?_⟩ <;> simp only [hs]

/-- What the obligations say of a further trip. -/
theorem State.furtherTrip_further (s : State) (src : Source) : FurtherTrip s (s.furtherTrip src) src := by
  intro r hr noted halts
  obtain ⟨tripping, tripped⟩ := s.furtherTrip_eq src hr
  refine ⟨fun hn h => ?_, fun hn hs hre => ?_, fun hh hs => ?_, fun hh hs => ?_⟩
  · rcases h with hs | ⟨hs, hre⟩
    · exact (tripped hs).trans (if_neg hn)
    · exact (tripping hs).trans ((if_neg hn).trans (if_neg hre))
  · exact (tripping hs).trans ((if_neg hn).trans (if_pos hre))
  · exact (tripped hs).trans (if_pos hh)
  · rw [tripping hs, if_pos hh, State.tripProgress_done (s.alsoTripped r src).zeroOrder.haltResponse hs rfl,
      State.haltResponse_eq]
    exact State.enterTripped_spec _

/-! ### What no raise changes -/

@[simp] theorem State.tripProgress_cfg (s : State) : s.tripProgress.cfg = s.cfg := by
  rcases s.tripProgress_cases with e | ⟨_, _, e⟩ <;> rw [e]
  exact s.enterTripped_cfg

@[simp] theorem State.furtherTrip_cfg (s : State) (src : Source) : (s.furtherTrip src).cfg = s.cfg := by
  rcases s.furtherTrip_cases src with e | ⟨_, e | e⟩ | ⟨_, e⟩ <;> rw [e]
  · rfl
  · exact State.tripProgress_cfg _
  · exact State.tripProgress_cfg _
  · rfl

@[simp] theorem State.latchingTrip_cfg (s : State) (src : Source) (ch : Option Channel) :
    (s.latchingTrip src ch).cfg = s.cfg := by
  obtain ⟨u, st, ordered, ⟨_, e⟩ | e⟩ := s.latchingTrip_ordered src ch <;> rw [e]
  · exact ordered.cfg
  · exact (State.enterTripped_cfg u).trans ordered.cfg

@[simp] theorem State.raise_cfg (s : State) (src : Source) (ch : Option Channel) :
    (s.raise src ch).cfg = s.cfg := by
  unfold State.raise
  split
  · rfl
  · rfl
  · split
    · exact s.furtherTrip_cfg src
    · exact s.latchingTrip_cfg src ch

@[simp] theorem State.raiseIf_cfg (s : State) (was now : Bool) (src : Source) (ch : Option Channel) :
    (s.raiseIf was now src ch).cfg = s.cfg := by
  unfold State.raiseIf
  split
  · exact s.raise_cfg src ch
  · rfl

@[simp] theorem State.runoutMotion_cfg (s : State) (returning : Bool) : (s.runoutMotion returning).cfg = s.cfg := by
  unfold State.runoutMotion
  split_ifs <;> simp

@[simp] theorem State.runoutEntry_cfg (s : State) (c : EndCause) (stop : Option Int) :
    (s.runoutEntry c stop).cfg = s.cfg := by
  have trails : ∀ (u : State) f, (u.onTrails f).cfg = u.cfg := fun u f => State.raiseIf_cfg _ _ _ _ _
  unfold State.runoutEntry
  simp [trails]

@[simp] theorem State.vacantCheck_cfg (s : State) : s.vacantCheck.cfg = s.cfg := by
  unfold State.vacantCheck
  split_ifs <;> simp

/-- The owners' tests leave the configuration (R115). -/
@[simp] theorem State.publish_cfg (s : State) (c : Channel) (v : Int) : (s.publish c v).cfg = s.cfg := by
  cases c
  case coilI => exact State.raiseIf_cfg _ _ _ _ _
  case pyro => exact State.raiseIf_cfg _ _ _ _ _
  case qTemp => exact State.raiseIf_cfg _ _ _ _ _
  case qPress =>
    show (s.takePressure v).cfg = _
    unfold State.takePressure
    dsimp only
    split
    · rfl
    · exact State.vacantCheck_cfg _
  all_goals rfl

/-- A latching trip orders the zero (R69, R139). -/
theorem State.latchingTrip_power (s : State) (src : Source) (ch : Option Channel) :
    (s.latchingTrip src ch).power = s.power.off := by
  obtain ⟨u, st, ordered, ⟨_, e⟩ | e⟩ := s.latchingTrip_ordered src ch <;> rw [e]
  · exact ordered.power
  · exact (State.enterTripped_power u).trans ordered.power

/-- A latching trip leaves QUENCH_TEMP_HIGH as the test of the value has set it (R133). -/
theorem State.latchingTrip_quenchTempHigh (s : State) (src : Source) (ch : Option Channel) :
    (s.latchingTrip src ch).trip.quenchTempHigh = s.trip.quenchTempHigh := by
  cases hrest : s.seq.state.isRest
  · have moving : (s.tripMoving src ch).trip.quenchTempHigh = s.trip.quenchTempHigh := by
      unfold State.tripMoving
      cases s.chosenResponse src <;> dsimp only
      · rw [State.runoutResponse_eq _ rfl rfl]
        unfold State.offDriven
        split_ifs <;> rfl
      all_goals rfl
    rw [s.latchingTrip_moving src ch hrest]
    rcases (s.tripMoving src ch).tripProgress_cases with e | ⟨_, _, e⟩ <;> rw [e]
    · exact moving
    · rw [State.enterTripped_trip]
      exact moving
  · rw [s.latchingTrip_resting src ch hrest, State.enterTripped_trip]
    unfold State.tripResting
    cases s.chosenResponse src <;> rfl

end Sys2Proof.Machine

namespace Sys2Proof.Machine

/-! ### A raise by class (R130, R135, R136) -/

/-- A source of the WARN class flags the open record, and does nothing else (R135, R158). -/
theorem State.raise_warns (s : State) (src : Source) (ch : Option Channel) (hc : s.classOf src = .warn) :
    s.raise src ch = { s with zones := s.warned } := by
  have flags : s.warnRaise.zones = s.warned := by
    rw [State.warnRaise_zones]
    unfold Zones.onOpen State.warned
    cases s.zones.openRec with
    | none => rfl
    | some r =>
      unfold OpenRecord.warnFlag OpenRecord.onZone
      cases s.heatingZone with
      | none => rfl
      | some z =>
        have marked := modify_eq_mapIdx r.zones z fun e => { e with acc := { e.acc with warn := true } }
        simp only [eq_comm (a := z)] at marked
        simp [marked]
  have raised : s.raise src ch = s.warnRaise := by
    unfold State.raise
    rw [hc]
  rw [raised]
  exact State.eq_of_blocks rfl rfl rfl rfl rfl rfl rfl flags rfl rfl rfl rfl

/-- A TRIP-class source raised with the latch set is a further trip (R138). -/
theorem State.raise_furthers (s : State) (src : Source) (ch : Option Channel) (hc : s.classOf src = .trip)
    (hl : s.trip.latch = true) : s.raise src ch = s.furtherTrip src := by
  unfold State.raise
  rw [hc]
  exact if_pos hl

/-- Nothing is raised by a condition not newly present, nor by one of the LIMIT class (R130, R136). -/
theorem State.raiseIf_quiet (s : State) (was now : Bool) (src : Source) (ch : Option Channel)
    (h : now = false ∨ was = true ∨ s.classOf src = .limit) : s.raiseIf was now src ch = s := by
  rcases h with h | h | h
  · exact s.raiseIf_none was now src ch (by simp [h])
  · exact s.raiseIf_none was now src ch fun _ => h
  · have limits : s.raise src ch = s := by
      unfold State.raise
      rw [h]
    unfold State.raiseIf
    rw [limits, ite_self]

/-- A condition newly present in the WARN class (R130, R135). -/
theorem State.raiseIf_warns (s : State) {was now : Bool} (src : Source) (hw : was = false) (hn : now = true)
    (hc : s.classOf src = .warn) : s.raiseIf was now src = { s with zones := s.warned } := by
  rw [hw, hn, State.raiseIf_new, s.raise_warns src none hc]

/-- A condition newly present in the TRIP class, from a like state with the latch clear (R130, R137). -/
theorem State.raiseIf_latches {s u : State} (a : s.TripsAlike u) {was now : Bool} (src : Source)
    (hw : was = false) (hn : now = true) (hc : u.classOf src = .trip) (hl : u.trip.latch = false) :
    Latched s (u.raiseIf was now src) src none ∧ u.raiseIf was now src = u.latchingTrip src none := by
  rw [hw, hn, State.raiseIf_new]
  exact ⟨(State.raise_latches a src none hc hl).1, u.raise_latching src none hc hl⟩

/-! ### The owners' tests (R86, R87, R104, R108, R132, R133) -/

/-- A condition set above `top` and cleared at `low`, as it stands behind a value. -/
theorem hysteresis_eq (top low v : Int) (was : Bool) :
    (if top < v then true else if v ≤ low then false else was) =
      decide (top < v ∨ (was = true ∧ low < v)) := by
  by_cases above : top < v
  · simp [above]
  · by_cases below : v ≤ low
    · simp [above, below, Int.not_lt.2 below]
    · simp [above, below, Int.not_le.1 below]

/-- COIL_I at its limit (R86). -/
theorem State.publish_coilI (s : State) (v : Int) :
    let x := s.cfg.trip
    let high := (x.iMax : Int) < v ∨ (s.power.coilOver = true ∧ ((x.iMax * 95 / 100 : Nat) : Int) < v)
    let u := { s with power := { s.power with coilOver := decide high } }
    (¬high ∨ s.power.coilOver = true ∨ x.classCoilOver = .limit → s.publish .coilI v = u) ∧
    (high → s.power.coilOver = false → x.classCoilOver = .trip → s.trip.latch = false →
      Latched s (s.publish .coilI v) .coilOvercurrent none ∧
        (s.publish .coilI v).power.coilOver = true) := by
  intro x high u
  have tested : s.publish .coilI v = u.raiseIf s.power.coilOver (decide high) .coilOvercurrent := by
    show s.takeCoilCurrent v = _
    unfold State.takeCoilCurrent coilOverAfter
    rw [hysteresis_eq]
    rfl
  refine ⟨fun h => ?_, fun hh hw hc hl => ?_⟩
  · rw [tested]
    exact u.raiseIf_quiet _ _ _ _ (h.imp_left decide_eq_false)
  · have alike : s.TripsAlike u := .of_seq rfl ⟨rfl, rfl, rfl⟩ ⟨rfl, rfl⟩ rfl (by simp [Keeps, u])
    obtain ⟨latched, trips⟩ := State.raiseIf_latches alike .coilOvercurrent hw (decide_eq_true hh) hc hl
    rw [tested]
    refine ⟨latched, ?_⟩
    rw [trips, State.latchingTrip_power]
    exact decide_eq_true hh

/-- PYRO at its limit (R87). -/
theorem State.publish_pyro (s : State) (v : Int) :
    let x := s.cfg.trip
    let hot := (x.tMax : Int) < v ∨ (s.power.pyroHigh = true ∧ (x.tMax : Int) - 20 < v)
    let u := { s with power := { s.power with pyroHigh := decide hot } }
    (¬hot ∨ s.power.pyroHigh = true ∨ x.classPyro = .limit → s.publish .pyro v = u) ∧
    (hot → s.power.pyroHigh = false → x.classPyro = .trip → s.trip.latch = false →
      Latched s (s.publish .pyro v) .pyroHigh none ∧ (s.publish .pyro v).power.pyroHigh = true) ∧
    (hot → s.power.pyroHigh = false → x.classPyro = .warn →
      s.publish .pyro v = { s with power := { s.power with pyroHigh := true }, zones := s.warned }) := by
  intro x hot u
  have tested : s.publish .pyro v = u.raiseIf s.power.pyroHigh (decide hot) .pyroHigh := by
    show s.takePyro v = _
    unfold State.takePyro pyroHighAfter
    rw [hysteresis_eq]
    rfl
  refine ⟨fun h => ?_, fun hh hw hc hl => ?_, fun hh hw hc => ?_⟩
  · rw [tested]
    exact u.raiseIf_quiet _ _ _ _ (h.imp_left decide_eq_false)
  · have alike : s.TripsAlike u := .of_seq rfl ⟨rfl, rfl, rfl⟩ ⟨rfl, rfl⟩ rfl (by simp [Keeps, u])
    obtain ⟨latched, trips⟩ := State.raiseIf_latches alike .pyroHigh hw (decide_eq_true hh) hc hl
    rw [tested]
    refine ⟨latched, ?_⟩
    rw [trips, State.latchingTrip_power]
    exact decide_eq_true hh
  · rw [tested, u.raiseIf_warns .pyroHigh hw (decide_eq_true hh) hc]
    have now : u.power = { s.power with pyroHigh := true } := by
      show ({ s.power with pyroHigh := decide hot } : Power) = _
      rw [decide_eq_true hh]
    exact State.eq_of_blocks rfl rfl rfl now rfl rfl rfl rfl rfl rfl rfl rfl

/-- Q_TEMP at its limit (R133). -/
theorem State.publish_qTemp (s : State) (v : Int) :
    let x := s.cfg.trip
    let warm := (x.qTempLimit : Int) < v ∨
      (s.trip.quenchTempHigh = true ∧ (x.qTempLimit : Int) - 2 < v)
    let u := { s with trip := { s.trip with quenchTempHigh := decide warm } }
    (¬warm ∨ s.trip.quenchTempHigh = true → s.publish .qTemp v = u) ∧
    (warm → s.trip.quenchTempHigh = false → x.classQTemp = .trip → s.trip.latch = false →
      Latched s (s.publish .qTemp v) .quenchTempHigh none ∧
        (s.publish .qTemp v).trip.quenchTempHigh = true) ∧
    (warm → s.trip.quenchTempHigh = false → x.classQTemp = .warn →
      s.publish .qTemp v = { s with trip := { s.trip with quenchTempHigh := true }, zones := s.warned }) := by
  intro x warm u
  have tested : s.publish .qTemp v = u.raiseIf s.trip.quenchTempHigh (decide warm) .quenchTempHigh := by
    show s.takeQuenchTemp v = _
    unfold State.takeQuenchTemp quenchTempAfter
    rw [hysteresis_eq]
    rfl
  refine ⟨fun h => ?_, fun hh hw hc hl => ?_, fun hh hw hc => ?_⟩
  · rw [tested]
    exact u.raiseIf_quiet _ _ _ _ (h.imp decide_eq_false .inl)
  · have alike : s.TripsAlike u := .of_seq rfl ⟨rfl, rfl, rfl⟩ ⟨rfl, rfl⟩ rfl (by simp [Keeps, u])
    obtain ⟨latched, trips⟩ := State.raiseIf_latches alike .quenchTempHigh hw (decide_eq_true hh) hc hl
    rw [tested]
    refine ⟨latched, ?_⟩
    rw [trips, State.latchingTrip_quenchTempHigh]
    exact decide_eq_true hh
  · rw [tested, u.raiseIf_warns .quenchTempHigh hw (decide_eq_true hh) hc]
    have now : u.trip = { s.trip with quenchTempHigh := true } := by
      show ({ s.trip with quenchTempHigh := decide warm } : TripUnit) = _
      rw [decide_eq_true hh]
    exact State.eq_of_blocks rfl rfl rfl rfl rfl rfl now rfl rfl rfl rfl rfl

/-- COIL_WATER at its minimum (R132, log 35). -/
theorem State.publish_coilWater (s : State) (v : Int) :
    s.publish .coilWater v = { s with
      trip := if s.cfg.trip.waterMin ≠ 0 ∧ v < s.cfg.trip.waterMin then
          { s.trip with coilWaterTimer := s.trip.coilWaterTimer || !s.trip.coilWaterLow }
        else { s.trip with coilWaterTimer := false, coilWaterLow := false } } := rfl

/-- A flow at its circuit's watch (R104, R105). -/
theorem CircuitState.flow_eq (w : CircuitState) (c : QuenchCfg) (least : Nat) (v : Int) :
    let enough := least = 0 ∨ (least : Int) ≤ v
    w.flow c least v = match w.watch with
      | .closed => w
      | .proving => if enough then { w with watch := .proved, proving := none } else w
      | .proved => if enough then { w with dropout := none }
        else { w with dropout := some (w.dropout.getD c.dropout) }
      | .low => if enough then { w with watch := .proved } else w := by
  intro enough
  have good : (least == 0 || decide ((least : Int) ≤ v)) = decide enough := by
    simp [enough, Bool.decide_or, beq_eq_decide]
  unfold CircuitState.flow
  rw [good]
  cases w.watch <;> simp only [decide_eq_true_eq]

/-- An empty RUNNING waits for its program and the supply (R25). -/
theorem State.vacantCheck_stays (s : State) (h : s.vacant = true → s.seq.next = none →
    if onlyMarks s.seq.queue = true then s.seq.programEnd = false else s.quench.supplyReady = true) :
    s.vacantCheck = s := by
  unfold State.vacantCheck
  split_ifs with vacant marks ended ready
  · rw [Bool.and_eq_true, Option.isNone_iff_eq_none] at vacant
    have going := h vacant.1 vacant.2
    rw [if_pos marks, ended] at going
    cases going
  · rfl
  · rw [Bool.and_eq_true, Option.isNone_iff_eq_none] at vacant
    have going := h vacant.1 vacant.2
    rw [if_neg marks] at going
    rw [going] at ready
    cases ready
  · rfl
  · rfl

/-- Q_PRESS at Supply Ready (R25, R108). -/
theorem State.publish_qPress (s : State) (v : Int) :
    let now := if s.quench.supplyReady then decide ((s.cfg.quench.offThreshold : Int) ≤ v)
      else decide ((s.cfg.quench.onThreshold : Int) ≤ v)
    let u := { s with quench := { s.quench with supplyReady := now } }
    (now = s.quench.supplyReady ∨ (s.vacant = true → s.seq.next = none →
        if onlyMarks s.seq.queue = true then s.seq.programEnd = false else now = true) →
      s.publish .qPress v = u) ∧
    (now = false → s.quench.supplyReady = true → s.vacant = true → s.seq.next = none →
      onlyMarks s.seq.queue = false → TrailInv s → HasTrailRoom s →
      EnteredRunout { s with quench := { s.quench with supplyReady := false } }
        (s.publish .qPress v) .supplyLost none) := by
  intro now u
  have taken : s.publish .qPress v = if now = s.quench.supplyReady then s else u.vacantCheck := rfl
  rw [taken]
  refine ⟨fun h => ?_, fun hn hr hv hx hm ht hroom => ?_⟩
  · by_cases same : now = s.quench.supplyReady
    · rw [if_pos same]
      show s = { s with quench := { s.quench with supplyReady := now } }
      rw [same]
    · rw [if_neg same]
      exact u.vacantCheck_stays (h.resolve_left same)
  · rw [if_neg (by rw [hn, hr]; decide)]
    let dry : State := { s with quench := { s.quench with supplyReady := false } }
    have lost : u = dry := by
      show { s with quench := { s.quench with supplyReady := now } } = _
      rw [hn]
    rw [lost, dry.vacantCheck_lost hv hx hm rfl]
    exact dry.runoutEntry_spec _ _ ht hroom

end Sys2Proof.Machine

namespace Sys2Proof.Machine

/-! ### Conversions (R114, R117, R119 to R124, R127) -/

/-- A conversion before the last is summed (R114). -/
theorem State.conversionComplete_before (s : State) (code : Nat) {b : Burst} (hb : s.meas.converter = some b)
    (hl : 1 < b.left) :
    s.conversionComplete code = s.onMeas ({ · with converter := some (b.convert code) }) := by
  have more : (b.convert code).left ≠ 0 := by
    show b.left - 1 ≠ 0
    omega
  unfold State.conversionComplete
  rw [hb]
  exact if_neg more

/-- The answer behind the result of a burst: the grant of a waiting request (R117). -/
def State.grantNext (s : State) : Host.Outcome State Fault Refusal := .next s.grant

/-- The last conversion of a burst frees the converter and completes the burst, and a grant follows (R114, R117). -/
theorem exec_conversionComplete_last (s : State) (code : Nat) {b : Burst} (hb : s.meas.converter = some b)
    (hl : b.left = 1) :
    exec (.conversionComplete code) s =
      ((s.onMeas ({ · with converter := none })).burstResult (b.convert code)).grantNext := by
  have ended : (b.convert code).left = 0 := by
    show b.left - 1 = 0
    rw [hl]
  show Host.Outcome.next (s.conversionComplete code) = _
  unfold State.conversionComplete
  rw [hb]
  exact congrArg Host.Outcome.next (if_pos ended)

/-- A burst without a rail code on a calibrated channel is a good sample (R119). -/
abbrev State.goodBurst (s : State) (b : Burst) : Prop :=
  b.rail = false ∧ (s.meas.chan.get b.channel).calibrated = true

/-- The value of a sample, were it good (R120). -/
def State.measured (s : State) (b : Burst) : Int :=
  sampleValue b.sum b.length (s.meas.chan.get b.channel).offset (s.cfg.measure.chan.get b.channel).scale

/-- The channel's record behind a sample, good or faulted (R120, R123). -/
def State.sampledRecord (s : State) (b : Burst) : ChannelRec :=
  if s.goodBurst b then (s.meas.chan.get b.channel).good (s.measured b)
  else (s.meas.chan.get b.channel).faulted (s.cfg.measure.chan.get b.channel) s.cfg.measure.stale

/-- The value that a sample publishes, if any (R120, R121, R123). -/
def State.sampledValue (s : State) (b : Burst) : Option Int :=
  if s.goodBurst b then some (s.measured b)
  else (s.meas.chan.get b.channel).faultedValue (s.cfg.measure.chan.get b.channel)

/-- The part with a sample recorded and its value, where there is one, published (R121). -/
def State.toldSample (s : State) (b : Burst) : State :=
  let taken := s.onChannel b.channel fun _ => s.sampledRecord b
  match s.sampledValue b with
  | some v => taken.publish b.channel v
  | none => taken

/-- The result of a sample's burst, good or faulted (R119, R123). -/
theorem State.burstResult_choice (s : State) (b : Burst) (hk : b.kind = .sample) :
    s.burstResult b = if s.goodBurst b then s.goodSample b else s.faultedSample b := by
  unfold State.burstResult
  rw [hk]
  exact if_congr (by simp [State.goodBurst]) rfl rfl

/-- What a faulted sample publishes, by mode (R123). -/
theorem ChannelRec.faultedValue_eq (r : ChannelRec) (c : ChannelCfg) :
    r.faultedValue c = if c.mode = .substitute then some c.substitute else r.lastGood := by
  unfold ChannelRec.faultedValue
  cases c.mode <;> rfl

/-- A sample is recorded and published; a SENSOR_FAULT that it makes present is raised behind it (R123, R124, log 24). -/
theorem State.burstResult_sample (s : State) (b : Burst) (hk : b.kind = .sample) :
    s.burstResult b = (s.toldSample b).raiseIf (s.meas.chan.get b.channel).sensorFault
      (s.sampledRecord b).sensorFault .sensorFault (some b.channel) := by
  rw [s.burstResult_choice b hk]
  by_cases good : s.goodBurst b
  · have record : s.sampledRecord b = (s.meas.chan.get b.channel).good (s.measured b) := if_pos good
    have value : s.sampledValue b = some (s.measured b) := if_pos good
    rw [if_pos good, State.raiseIf_none _ _ _ _ _ (by rw [record]; exact nofun)]
    unfold State.toldSample
    rewrite [record, value]
    rfl
  · have record : s.sampledRecord b = (s.meas.chan.get b.channel).faulted
        (s.cfg.measure.chan.get b.channel) s.cfg.measure.stale := if_neg good
    have value : s.sampledValue b =
        (s.meas.chan.get b.channel).faultedValue (s.cfg.measure.chan.get b.channel) := if_neg good
    rw [if_neg good]
    unfold State.toldSample State.faultedSample
    rewrite [record, value]
    rfl

/-- Publishing leaves the configuration. -/
@[simp] theorem State.toldSample_cfg (s : State) (b : Burst) : (s.toldSample b).cfg = s.cfg := by
  unfold State.toldSample
  cases s.sampledValue b with
  | none => rfl
  | some v => exact State.publish_cfg _ _ _

/-- A calibration takes the offset, or marks the channel not calibrated (R127). -/
theorem State.burstResult_calibration (s : State) (b : Burst) (hk : b.kind = .calibration) :
    s.burstResult b = s.onChannel b.channel (·.calibrate b) := by
  unfold State.burstResult
  rw [hk]

/-- The measured offset is taken within 512 codes (R127). -/
theorem ChannelRec.calibrate_taken (r : ChannelRec) {b : Burst} (hr : b.rail = false)
    (ho : (measuredOffset b.sum).natAbs ≤ 512) :
    r.calibrate b = { r with offset := measuredOffset b.sum, calibrated := true } := by
  unfold ChannelRec.calibrate
  rw [hr, decide_eq_true ho]
  rfl

/-- A rail code or an offset beyond 512 codes leaves the channel not calibrated (R127). -/
theorem ChannelRec.calibrate_refused (r : ChannelRec) {b : Burst}
    (h : b.rail = true ∨ 512 < (measuredOffset b.sum).natAbs) :
    r.calibrate b = { r with calibrated := false } := by
  unfold ChannelRec.calibrate
  refine if_neg fun taken => ?_
  rw [Bool.and_eq_true, Bool.not_eq_true', decide_eq_true_eq] at taken
  rcases h with h | h
  · exact Bool.false_ne_true (taken.1.symm.trans h)
  · exact Nat.not_le.2 h taken.2

/-- The three ends of a sample's last conversion (R123, R124, log 24). -/
theorem State.sampleRaise (s : State) (b : Burst) (hk : b.kind = .sample) :
    let r := s.meas.chan.get b.channel
    let r' := s.sampledRecord b
    let told := s.toldSample b
    ((r'.sensorFault = true → r.sensorFault = true) → s.burstResult b = told) ∧
    (r.sensorFault = false → r'.sensorFault = true → s.cfg.trip.classSensor = .warn →
      s.burstResult b = { told with zones := told.warned }) ∧
    (r.sensorFault = false → r'.sensorFault = true → s.cfg.trip.classSensor = .trip →
      (told.trip.latch = false → Latched told (s.burstResult b) .sensorFault (some b.channel)) ∧
        (told.trip.latch = true → FurtherTrip told (s.burstResult b) .sensorFault)) := by
  intro r r' told
  have result := s.burstResult_sample b hk
  have cls : told.classOf .sensorFault = s.cfg.trip.classSensor :=
    congrArg (fun c : ConfigGroups => c.trip.classSensor) (s.toldSample_cfg b)
  refine ⟨fun h => ?_, fun hw hn hc => ?_, fun hw hn hc => ?_⟩ <;> rw [result]
  · exact State.raiseIf_none _ _ _ _ _ h
  · rw [hw, hn, State.raiseIf_new]
    exact told.raise_warns _ _ (cls.trans hc)
  · rw [hw, hn, State.raiseIf_new]
    refine ⟨fun hl => ?_, fun hl => ?_⟩
    · rw [State.raise_latching _ _ _ (cls.trans hc) hl]
      exact told.latchingTrip_latched _ _
    · rw [State.raise_furthers _ _ _ (cls.trans hc) hl]
      exact told.furtherTrip_further _

/-- A conversion without a burst changes nothing (R114). -/
theorem exec_conversionComplete_idle (s : State) (code : Nat) (hb : s.meas.converter = none) :
    exec (.conversionComplete code) s = .next s := by
  have same : s.conversionComplete code = s := by
    unfold State.conversionComplete
    rw [hb]
  exact congrArg Host.Outcome.next same

/-- Settles O53: the last conversion of a sample by `sampleRaise`, each owner by its own lemma, and the other ends of a burst. -/
theorem conversionsComplete : Obligations.ConversionsComplete := by
  unfold Obligations.ConversionsComplete
  intro granted
  refine ⟨fun s code b hb hl hk => ?_, fun s v => ?_, fun s v ch k hck => ?_, fun s v => ?_,
    fun s code => ⟨exec_conversionComplete_idle s code, fun b hb => ?_⟩⟩
  · intro rail r c good value held r' given taken told
    let free := s.onMeas ({ · with converter := none })
    have record : free.sampledRecord (b.convert code) = r' := rfl
    have publishes : free.sampledValue (b.convert code) = given := by
      unfold State.sampledValue
      rewrite [ChannelRec.faultedValue_eq]
      rfl
    have result : free.toldSample (b.convert code) = told := by
      unfold State.toldSample
      rewrite [record, publishes]
      rfl
    obtain ⟨quiet, warns, trips⟩ := free.sampleRaise (b.convert code) hk
    rw [result] at quiet warns trips
    rw [exec_conversionComplete_last s code hb hl]
    exact ⟨fun h => congrArg State.grantNext (quiet h),
      fun hw hn hc => congrArg State.grantNext (warns hw hn hc),
      fun hw hn hc => ⟨_, rfl, trips hw hn hc⟩⟩
  · obtain ⟨coil, coilTrip⟩ := s.publish_coilI v
    obtain ⟨pyro, pyroTrip, pyroWarn⟩ := s.publish_pyro v
    obtain ⟨temp, tempTrip, tempWarn⟩ := s.publish_qTemp v
    exact ⟨coil, coilTrip, pyro, pyroTrip, pyroWarn, temp, tempTrip, tempWarn, rfl, s.publish_coilWater v⟩
  · intro w least enough
    have flow : s.publish ch v = s.takeFlow k v := by
      simp only [List.mem_cons, Prod.mk.injEq, List.not_mem_nil, or_false] at hck
      rcases hck with ⟨rfl, rfl⟩ | ⟨rfl, rfl⟩ | ⟨rfl, rfl⟩ <;> rfl
    have watch := w.flow_eq s.cfg.quench least v
    rw [flow]
    exact congrArg (fun x => { s with quench := { s.quench with circuit := s.quench.circuit.set k x } }) watch
  · exact s.publish_qPress v
  · intro rail sum r value offset
    let free := s.onMeas ({ · with converter := none })
    refine ⟨fun hl => congrArg Host.Outcome.next (s.conversionComplete_before code hb hl),
      fun hl hk hc hr hcal => ?_, fun hl hk hr ho => ?_, fun hl hk h => ?_⟩
    · have owner (u : State) (x : Int) : u.publish b.channel x = u := by rw [hc]; rfl
      rw [exec_conversionComplete_last s code hb hl, free.burstResult_choice (b.convert code) hk,
        if_pos ⟨hr, hcal⟩]
      rewrite [← hc]
      exact congrArg State.grantNext (owner _ _)
    · rw [exec_conversionComplete_last s code hb hl, free.burstResult_calibration (b.convert code) hk]
      exact congrArg (fun x => (free.onChannel b.channel fun _ => x).grantNext) (r.calibrate_taken hr ho)
    · rw [exec_conversionComplete_last s code hb hl, free.burstResult_calibration (b.convert code) hk]
      exact congrArg (fun x => (free.onChannel b.channel fun _ => x).grantNext) (r.calibrate_refused h)

end Sys2Proof.Machine

namespace Sys2Proof.Machine

/-! ### Alternation of the rings under the Quench Unit's operations (R93 to R99) -/

/-- Both trails hold at most 16 entries and alternate from their valves (R93): what `TrailInv` reads. -/
def Quench.Alternating (q : Quench) : Prop := ∀ r : Ring, (q.trail.get r).entries.length ≤ 16 ∧
  alternates (q.circuit.get r.circuit).valve (q.trail.get r).entries = true

theorem trailInv_iff (s : State) : TrailInv s ↔ s.quench.Alternating := Iff.rfl

namespace Quench

theorem ringsQuiet.alternating {q : Quench} (h : q.ringsQuiet) : q.Alternating := (h.sound none).alternate

namespace Alternating

/-- A request changes the trail of its ring alone (R94, R95, R96). -/
theorem request {q : Quench} (h : q.Alternating) (d : Option Dir) (r : Ring) (on : Bool) (p : Int) :
    (q.request d r on p).Alternating := by
  intro r'
  rw [Quench.request_circuit]
  by_cases hr : r' = r
  · subst hr
    exact q.request_alternates d r' on p (h r').1 (h r').2
  · rw [q.request_other d r r' on p hr]
    exact h r'

theorem settings {q : Quench} (h : q.Alternating) (d : Option Dir) (x y : QSetting) (p : Int) :
    ((q.setting d .q1 x p).setting d .q2 y p).Alternating := by
  rw [Quench.setting_eq, Quench.setting_eq]
  exact (h.request _ _ _ _).request _ _ _ _

theorem offRequests {q : Quench} (h : q.Alternating) (d : Option Dir) (p : Int) :
    (q.offRequests d p).Alternating :=
  (h.request _ _ _ _).request _ _ _ _

/-- Entries that leave a trail at its head leave the valve as the last of them asks, so that the rest alternates from it (R99). -/
theorem dropped {q q' : Quench} (hq : q.Alternating) (h : q.Dropped q') : q'.Alternating := by
  intro r
  obtain ⟨gone, entries, valve, _⟩ := h r
  obtain ⟨len, alt⟩ := hq r
  rw [entries] at len alt
  rw [alternates_concat, Bool.and_eq_true] at alt
  rw [List.length_append] at len
  exact ⟨by omega, valve ▸ alt.2⟩

end Alternating

end Quench

/-- Leaving Active, a SPRAY step closes Q3 and leaves the rings (R35, R102). -/
theorem State.clearActive_rings (s : State) (a : Admitted) : s.quench.SameRings (s.clearActive a).quench := by
  have closed : s.quench.SameRings s.quench.sprayClose := by
    unfold Quench.sprayClose
    split <;> exact ⟨rfl, rfl, rfl⟩
  unfold State.clearActive
  dsimp only
  split
  · exact closed
  · exact .refl _

/-- The entry to TRIPPED starts the idle timer of the pump, and leaves the rings (R144). -/
theorem State.enterTripped_rings (s : State) : s.quench.SameRings s.enterTripped.quench := by
  rw [State.enterTripped_quench]
  split
  · exact s.quench.idleStart_rings _
  · exact .refl _

/-- The end of a run-out leaves the rings (R46). -/
theorem State.runoutComplete_rings (s : State) : s.quench.SameRings s.runoutComplete.quench := by
  rw [State.runoutComplete_quench]
  exact s.quench.idleStart_rings _

/-- The exit from PRESTART leaves the rings (R26, R102, R109). -/
theorem State.exitPrestart_rings (s : State) (c : EndCause) : s.quench.SameRings (s.exitPrestart c).quench := by
  let u := (s.onSeq ({ · with lastEnd := some c })).flush
  have flushed : u.quench = s.unsprayed := State.flush_unsprayed _
  have rings : u.quench.SameRings (s.exitPrestart c).quench := by
    have started : (s.exitPrestart c).quench = u.quench.idleStart u.cfg.quench := by
      unfold State.exitPrestart
      simp [u]
    rw [started]
    exact Quench.idleStart_rings _ _
  rw [flushed] at rings
  have closed := s.unsprayed_sameRings
  exact ⟨rings.trail.trans closed.trail, rings.valve1.trans closed.valve1, rings.valve2.trans closed.valve2⟩

namespace TrailInv

/-! ### Trips (R101, R139 to R147) -/

theorem of_quench {s t : State} (h : TrailInv s) (e : t.quench = s.quench) : TrailInv t := by
  rw [trailInv_iff, e]
  exact h

theorem calm {s t : State} (h : TrailInv s) (c : Calm s t) : TrailInv t :=
  Quench.SameRings.trailInv ⟨c.trail, c.valve1, c.valve2⟩ h

/-- Behind a discard both trails are empty (R101). -/
theorem of_discarded {t : State} (q : Quench) (halt : Bool) (e : t.quench = q.discard halt) : TrailInv t := by
  rw [trailInv_iff, e]
  exact (q.discard_quiet halt).1.alternating

/-- The orders of a HALT discard, and stop the pump (R143). -/
theorem of_halted {t : State} (q : Quench) (e : t.quench = (q.discard true).pumpOff) : TrailInv t := by
  rw [trailInv_iff, e]
  exact ((Quench.pumpOff_rings _).ringsQuiet (q.discard_quiet true).1).alternating

theorem enterTripped {s : State} (h : TrailInv s) : TrailInv s.enterTripped := s.enterTripped_rings.trailInv h

theorem tripProgress {s : State} (h : TrailInv s) : TrailInv s.tripProgress := by
  rcases s.tripProgress_cases with e | ⟨_, _, e⟩ <;> rw [e]
  · exact h
  · exact h.enterTripped

/-- A RUNOUT response asks both rings OFF, or discards when a request is lost (R95, R96, R140). -/
theorem runoutResponse {s : State} (h : TrailInv s) (hs : s.seq.state = .tripping)
    (hr : s.respond .runout = s) : TrailInv s.runoutResponse := by
  have asked : TrailInv s.offAsked := Quench.Alternating.offRequests h _ _
  rw [State.runoutResponse_eq s hs hr]
  split
  · exact of_discarded _ false rfl
  · unfold State.offDriven
    split_ifs
    · exact asked.of_quench rfl
    · exact asked.of_quench rfl
    · exact asked.of_quench rfl

/-- The orders of a latching trip leave the rings as they are, ask them OFF, or discard (R139 to R143). -/
theorem latchingTrip {s : State} (h : TrailInv s) (src : Source) (ch : Option Channel) :
    TrailInv (s.latchingTrip src ch) := by
  have base : ∀ r st, TrailInv (s.tripBase src ch r st) := fun r st =>
    Quench.SameRings.trailInv (u := s.tripBase src ch r st) (s.tripQuench_rings r) h
  cases hrest : s.seq.state.isRest
  · rw [s.latchingTrip_moving src ch hrest]
    refine tripProgress ?_
    unfold State.tripMoving
    cases s.chosenResponse src
    case runout => exact ((base .runout .tripping).runoutResponse rfl rfl).of_quench rfl
    case stop => exact of_discarded _ false rfl
    case stopFlood => exact of_discarded _ false rfl
    case halt => exact of_halted _ rfl
  · rw [s.latchingTrip_resting src ch hrest]
    refine enterTripped ?_
    unfold State.tripResting
    cases s.chosenResponse src
    case runout => exact (base .runout s.seq.state).of_quench rfl
    case stop => exact of_discarded _ false rfl
    case stopFlood => exact of_discarded _ false rfl
    case halt => exact of_halted _ rfl

/-- A further trip changes the record alone, or discards (R101, R146, R147). -/
theorem furtherTrip {s : State} (h : TrailInv s) (src : Source) : TrailInv (s.furtherTrip src) := by
  rcases s.furtherTrip_cases src with e | ⟨_, e | e⟩ | ⟨_, e⟩ <;> rw [e]
  · exact h.of_quench rfl
  · exact tripProgress (of_halted _ rfl)
  · exact tripProgress (of_discarded _ false rfl)
  · exact of_halted _ rfl

/-! ### Trail changes and acts -/

/-- A change of the trails that keeps them alternating, and the trip of a lost append (R96). -/
theorem onTrails {s : State} (f : Quench → Quench) (h : (f s.quench).Alternating) : TrailInv (s.onTrails f) := by
  have changed : TrailInv (s.onQuench f) := h
  rcases s.onTrails_cases f with ⟨e, _⟩ | ⟨_, e⟩ | ⟨_, e⟩ <;> rw [e]
  · exact changed
  · exact changed.furtherTrip _
  · exact changed.latchingTrip _ _

/-- The Quench Unit's share of an activation (R94, R102). -/
theorem handQuench {s : State} (h : TrailInv s) (a : Admitted) : TrailInv (s.handQuench a) := by
  rcases s.handQuench_cases a with ⟨_, x, y, e⟩ | c
  · rw [e]
    exact onTrails _ (Quench.Alternating.settings h _ x y _)
  · exact h.calm c

/-- The entry to RUNOUT asks both rings OFF (R45, R95). -/
theorem ends {s : State} (h : TrailInv s) (c : EndCause) (pos : Int) :
    TrailInv ((s.runoutStart c).onTrails (·.offRequests s.seq.passDir pos)) := by
  have begun : TrailInv (s.runoutStart c) := Quench.SameRings.trailInv s.unsprayed_sameRings h
  exact onTrails _ (Quench.Alternating.offRequests begun _ _)

/-- Every act keeps both trails, in every state. -/
theorem act (s t : State) (a : Act s t) (h : TrailInv s) : TrailInv t := by
  cases a with
  | calm c => exact h.calm c
  | latches src ch _ => exact h.latchingTrip src ch
  | furthers src _ => exact h.furtherTrip src
  | trips _ _ => exact h.enterTripped
  | restarts | resets => exact Quench.ringsQuiet.alternating ⟨rfl, rfl, rfl⟩
  | exits c _ => exact (s.exitPrestart_rings c).trailInv h
  | starts p _ _ =>
    rw [State.acceptStart_eq]
    exact Quench.SameRings.trailInv ⟨rfl, rfl, rfl⟩ h
  | edits q _ c => exact (h.of_quench (t := { s with seq := q }) rfl).calm c
  | activates a _ _ _ c => exact ((h.of_quench (t := s.onSeq (·.activated a)) rfl).calm c).handQuench a
  | idles a _ => exact (s.clearActive_rings a).trailInv h
  | ends c pos _ => exact h.ends c pos
  | completes _ _ => exact s.runoutComplete_rings.trailInv h
  | releases c d pos v _ => exact Quench.Alternating.dropped h (s.quench.releases_dropped c d pos v)
  | clears | rests | runs | admits | drains | stops | returns | sees | drops => exact h.of_quench rfl

end TrailInv

/-- A chain of acts keeps both trails. -/
theorem Acts.trails {s t : State} (a : Acts s t) (h : TrailInv s) : TrailInv t := a.keeps TrailInv.act h

end Sys2Proof.Machine

namespace Sys2Proof.Machine

namespace TrailInv

/-! ### Activations and ends of steps, in every Sequencer state (R25, R33, R35, R45)

The chains of acts of a step end, of the entry to RUNNING and of a STEP start from a state within the queue's bounds. Their trails are
kept in every state. -/

theorem activate {s : State} (h : TrailInv s) (a : Admitted) : TrailInv (s.activate a) :=
  handQuench (h.of_quench (by simp)) a

theorem proceed {s : State} (h : TrailInv s) : TrailInv s.proceed := by
  unfold State.proceed
  split
  · split
    · split
      · exact h.of_quench rfl
      · exact h.of_quench rfl
    · exact h.activate _
  · exact h.of_quench rfl

theorem runoutEntry {s : State} (h : TrailInv s) (c : EndCause) (stop : Option Int) :
    TrailInv (s.runoutEntry c stop) := by
  rw [State.runoutEntry_eq]
  exact (State.runoutMotion_acts _ _).trails (h.ends c _)

theorem stepEnd {s : State} (h : TrailInv s) : TrailInv s.stepEnd := by
  unfold State.stepEnd
  split
  · exact h
  · have cleared : TrailInv (s.clearActive ‹_›) := (s.clearActive_rings _).trailInv h
    dsimp only
    split_ifs
    · exact cleared.proceed
    · exact cleared.runoutEntry _ _
    · exact cleared.runoutEntry _ _
    · exact cleared.of_quench rfl
    · exact cleared.runoutEntry _ _

theorem stepTick {s : State} (h : TrailInv s) : TrailInv s.stepTick := by
  have counted : TrailInv (s.onSeq fun q => { q with scanClock := q.scanClock.map (· + 1) }) := h.of_quench rfl
  unfold State.stepTick
  dsimp only
  split
  · exact counted
  · split
    · exact counted.stepEnd
    · exact counted.of_quench rfl

theorem enterRunning {s : State} (h : TrailInv s) : TrailInv s.enterRunning := by
  unfold State.enterRunning
  split
  · have entered : TrailInv ((s.onSeq ({ · with prestartTimer := none })).enter .running .ready) :=
      h.of_quench rfl
    exact (State.vacantCheck_acts _).trails entered.proceed
  · exact h

/-! ### A position sample (R48) -/

/-- A sample's own part releases both rings, or none (R99). -/
theorem sampledPart {s : State} (h : TrailInv s) (r : Reading) : TrailInv (s.sampledPart r) := by
  obtain ⟨z, t, e, _⟩ := s.sampledPart_spec r
  rw [trailInv_iff, e]
  dsimp only
  unfold State.releasedAt
  split
  · split
    · exact h
    · exact Quench.Alternating.dropped h (s.quench.releases_dropped _ _ _ _)
  · exact h

theorem positionSample {s : State} (h : TrailInv s) (r : Reading) : TrailInv (s.positionSample r) := by
  have tested := (State.testLimits_acts _ r).trails (h.sampledPart r)
  have sought := (tested.calm (State.seekSample_calm _ r.refSwitch)).calm (State.arrivalSample_calm _)
  have ended : TrailInv (((s.sampledPart r).testLimits r).modeTested r) := by
    unfold State.modeTested State.scanSample
    split
    · exact sought.stepEnd
    · exact sought.calm (State.brakeSample_calm _)
  rw [State.positionSample_eq]
  exact ended.of_quench rfl

/-! ### Requests -/

theorem answer {s : State} (h : TrailInv s) (kind tag : Byte) (a : Answer) : TrailInv (s.answer kind tag a) :=
  h.of_quench rfl

/-- A STEP leaves the rings until an empty RUNNING is looked at (R25, R37). -/
theorem serveStep {s : State} (h : TrailInv s) (tag : Byte) (r : StepRecord) : TrailInv (s.serveStep tag r) := by
  have heads : ∀ u : State, u.sourceHead.quench = u.quench := fun u => by
    unfold State.sourceHead State.resumeLoader
    dsimp only
    repeat' split
    all_goals rfl
  have accepted : ∀ step, TrailInv ((s.answer 0x09#8 tag (s.stepAnswer r)).acceptStep step) := fun step => by
    rw [State.acceptStep_eq]
    have joins : TrailInv ((s.answer 0x09#8 tag (s.stepAnswer r)).joined step) := h.of_quench rfl
    exact (State.vacantCheck_acts _).trails ((joins.calm (State.chooseSpin_calm _ step)).of_quench (heads _))
  unfold State.serveStep
  dsimp only
  split
  · split
    · exact accepted _
    · exact h.answer _ _ _
  · exact h.answer _ _ _

/-- Serving a request that has been taken (R188). -/
theorem serve {s : State} (h : TrailInv s) (tag : Byte) (r : Request) : TrailInv (s.serve tag r) := by
  have written : ∀ (want : Nat) (items : List Int) {α : Type} (read : Option α)
      (f : α → ConfigGroups → ConfigGroups),
      TrailInv (s.serveConfig tag want items read fun c t => t.onCfg (f c)) :=
    fun want items _ read f => by
      refine (s.serveConfig_acts tag want items read _ fun _ _ => ?_).trails h
      exact .calm (.of_blocks rfl rfl rfl rfl)
  cases r
  case configureMachine xs => exact written 13 xs _ _
  case configureQuench xs => exact written 13 xs _ _
  case configureMeasure xs =>
    refine (s.serveConfig_acts tag 49 xs _ _ fun _ _ => ?_).trails h
    exact .calm (.of_blocks rfl rfl rfl rfl)
  case configureTrip xs =>
    refine (s.serveConfig_acts tag 25 xs _ _ fun c u => ?_).trails h
    have told : Calm u (u.onCfg ({ · with trip := c })) := .of_blocks rfl rfl rfl rfl
    exact (Acts.calm told).trans (State.raisePresent_acts _ _)
  case configureFlow xs => exact written 2 xs _ _
  case configurePrestart xs => exact written 1 xs _ _
  case restart => exact (s.serveRestart_acts tag).trails h
  case home => exact (s.serveHome_acts tag).trails h
  case moveTo p v => exact (s.serveMoveTo_acts tag p v).trails h
  case stop => exact (State.stopEffect_acts _).trails (h.answer _ _ _)
  case startProfile p g =>
    refine (s.start_acts _ tag _ _ ?_).trails h
    unfold State.profileCheck
    split <;> nofun
  case startStream g ws =>
    refine (s.start_acts _ tag _ _ ?_).trails h
    unfold streamCheck
    split <;> nofun
  case step r => exact h.serveStep tag r
  case trim t sp m =>
    show TrailInv (s.serveTrim tag t sp m)
    unfold State.serveTrim
    dsimp only
    split
    · exact (State.trimEffect_acts _ _ _ _).trails (h.answer _ _ _)
    · exact h.answer _ _ _
  case forceTrip => exact (State.raise_acts _ _ _).trails (h.answer _ _ _)
  case clearTrip => exact (s.serveClearTrip_acts tag).trails h
  case status | profileList | recordGet | inhibitOn | inhibitOff => exact h.of_quench rfl
  case profileOpen | profileData | profileClose | profileErase | recordRelease =>
    refine h.of_quench ?_
    dsimp only [State.serve, State.serveOpen, State.serveData, State.serveClose, State.serveErase,
      State.serveRelease]
    split <;> rfl

theorem request {s : State} (h : TrailInv s) (tag : Byte) (r : Request) :
    TrailInv (s.request tag r (·.serve tag r)) := by
  unfold State.request
  split_ifs
  · exact h
  · exact h.serve tag r
  · exact h.of_quench rfl

theorem dispatch {s : State} (h : TrailInv s) : TrailInv s.dispatch := by
  unfold State.dispatch
  split
  · exact h
  · rename_i r rest _
    have taken : TrailInv (s.onLink ({ · with rxBuffer := rest })) := h.of_quench rfl
    split
    · dsimp only
      split
      · exact taken.answer _ _ _
      · exact taken.answer _ _ _
      · exact taken.serve _ _
    · exact h

/-! ### Every command -/

/-- A raise behind a change that leaves the Quench Unit (R130). -/
theorem raised {s u : State} (h : TrailInv s) (e : u.quench = s.quench) (was now : Bool) (src : Source) :
    TrailInv (u.raiseIf was now src) :=
  (State.raiseIf_acts _ _ _ _ _).trails (h.of_quench e)

theorem exec {s t : State} (h : TrailInv s) (c : Instr) (e : Machine.exec c s = .next t) : TrailInv t := by
  cases hr : c.request with
  | some p =>
    rw [exec_request c p.1 p.2 s hr] at e
    cases e
    exact h.request _ _
  | none =>
    cases c
    case reset =>
      cases e
      exact (State.raisePresent_acts _ _).trails (act _ _ (.resets s.inputs s.pending) h)
    case frameReceived | receiveGapTimeout | byteReceived | powerUpdate | requestTimerExpiry |
        calibrationTimerExpiry => cases e; exact h.of_quench rfl
    case dispatch => cases e; exact h.dispatch
    case frameSent =>
      cases e
      unfold State.frameSent
      split
      · exact h.of_quench rfl
      · exact h
    case positionSample => cases e; exact h.positionSample _
    case stepTimerExpiry => cases e; exact h.stepTick
    case prestartTimeout =>
      cases e
      unfold State.prestartTimeout
      split
      · exact (s.exitPrestart_rings _).trailInv h
      · exact h
    case conversionComplete code => cases e; exact (s.conversionComplete_acts code).trails h
    case provingTimerExpiry k => cases e; exact (s.watchExpiry_acts k _).trails h
    case dropoutTimerExpiry k => cases e; exact (s.watchExpiry_acts k _).trails h
    case floodTimerExpiry => cases e; exact s.floodExpired_acts.trails h
    case pumpIdleTimerExpiry => cases e; exact h.calm s.idleExpiry_calm
    case coilWaterTimerExpiry =>
      cases e
      unfold State.coilWaterExpired
      split
      · exact h.raised (by rfl) _ _ _
      · exact h
    case lowCountReached =>
      cases e
      unfold State.lowCountReached
      split
      · exact (State.raise_acts _ _ _).trails (h.of_quench rfl)
      · exact h
    case readyInputChange => cases e; exact h.raised (by rfl) _ _ _
    case faultInputChange => cases e; exact h.raised (by rfl) _ _ _
    case emergencyStopInput => cases e; exact h.raised (by rfl) _ _ _
    case encoderFaultInput => cases e; exact h.raised (by rfl) _ _ _
    case stoppingComplete => cases e; exact s.stoppingComplete_acts.trails h
    case arrived => cases e; exact s.arrived_acts.trails h
    case returned => cases e; exact s.returned_acts.trails h
    case turnStoppedActivation => cases e; exact s.turnStoppedActivation_acts.trails h
    case enterRunning => cases e; exact h.enterRunning
    case admission => cases e; exact s.admission_acts.trails h
    case loaderAppend => cases e; exact s.loaderAppend_acts.trails h
    all_goals cases hr

end TrailInv

/-- Settles O5: a step is a command from a state that differs in the waiting commands alone, and every command keeps both trails. -/
theorem trailsAlternate : Obligations.TrailsAlternate := by
  intro s t h e
  unfold step at e
  split at e
  · cases e
    exact h
  · rename_i c rest _
    have taken : TrailInv { s with pending := rest } := h
    exact taken.exec c e

end Sys2Proof.Machine

namespace Sys2Proof.Machine

/-! ### A watch that becomes LOW (R104, R105, R107, R135) -/

/-- The record list behind a loss of flow: flagged at the spray position of a ring, as it was for Q3 (R107, R159). -/
def State.lostZones (s : State) : Circuit → Zones
  | .q1 => s.shorted .q1
  | .q2 => s.shorted .q2
  | .q3 => s.zones

/-- The report of a ring whose watch is LOW flags the zones over its spray position (R107, R159). -/
theorem State.quenchShort_low (s : State) (r : Ring) (low : (s.quench.circuit.get r.circuit).watch = .low) :
    s.quenchShort r = { s with zones := s.shorted r } := by
  unfold State.quenchShort State.shorted
  cases s.seq.passDir with
  | none => rfl
  | some d =>
    have each : ∀ e : ZoneEntry,
        (if e.acc.covers (s.under d r) then { e with acc := { e.acc with quenchShort := true } } else e) =
          match e.acc.extent with
          | some (lo, hi) =>
            if lo ≤ s.under d r ∧ s.under d r ≤ hi then
              { e with acc := { e.acc with quenchShort := true } }
            else e
          | none => e := fun e => by
      unfold ZoneAcc.covers
      cases e.acc.extent <;> simp
    have present : s.quench.flowLow r.circuit = true := beq_iff_eq.2 low
    dsimp only
    rw [if_pos present]
    exact congrArg (fun f => s.onZones (·.onOpen fun o => { o with zones := o.zones.map f })) (funext each)

/-- A loss of flow in the WARN class: the watch LOW, the report of a ring, the WARN flag, and nothing else (R104, R105, R107, R135). -/
theorem State.flowLost_warns (s : State) (k : Circuit) (hc : s.cfg.trip.classFlow.get k = .warn) :
    s.flowLost k = { s.lowFlow k with zones := State.warned { s with zones := s.lostZones k } } := by
  have lost : s.flowLost k = State.raise { s.lowFlow k with zones := s.lostZones k } k.flowLow := by
    cases k
    · exact congrArg (State.raise · _) ((s.lowFlow .q1).quenchShort_low .q1 rfl)
    · exact congrArg (State.raise · _) ((s.lowFlow .q2).quenchShort_low .q2 rfl)
    · rfl
  have cls : State.classOf { s.lowFlow k with zones := s.lostZones k } k.flowLow = .warn := by
    cases k <;> exact hc
  rw [lost, State.raise_warns _ _ none cls]
  rfl

/-! ### The flood timer (R103, R109, R142, R144) -/

/-- The Quench Unit with Q3 closed at the end of a flood (R103). -/
def Quench.unflooded (q : Quench) : Quench :=
  { q with circuit := { q.circuit with q3 := .closed }, q3Owner := .none, floodTimer := none }

/-- The expiry closes Q3, and starts an idle timer that was put off afresh (R103, R109). -/
theorem Quench.floodExpiry_eq (q : Quench) (c : QuenchCfg) :
    q.floodExpiry c = if q.idleDeferred then q.unflooded.idling c.pumpIdle else q.unflooded := rfl

/-- A start of the idle timer leaves the circuits and the owner of Q3 (R110). -/
theorem Quench.idling_kept (q : Quench) (idle : Nat) :
    (q.idling idle).circuit = q.circuit ∧ (q.idling idle).q3Owner = q.q3Owner := by
  unfold Quench.idling
  split_ifs <;> exact ⟨rfl, rfl⟩

theorem Quench.floodExpiry_q3 (q : Quench) (c : QuenchCfg) :
    (q.floodExpiry c).circuit.q3 = .closed ∧ (q.floodExpiry c).q3Owner = .none := by
  obtain ⟨circuit, owner⟩ := q.unflooded.idling_kept c.pumpIdle
  rw [q.floodExpiry_eq]
  split
  · rw [circuit, owner]
    exact ⟨rfl, rfl⟩
  · exact ⟨rfl, rfl⟩

/-- Where no STOP_FLOOD waits, the expiry is the Quench Unit's (R103). -/
theorem State.floodExpired_alone (s : State) (ht : s.quench.floodTimer.isSome = true)
    (hw : ¬(s.seq.state = .tripping ∧ s.trip.response = some .stopFlood)) :
    s.floodExpired = { s with quench := s.quench.floodExpiry s.cfg.quench } := by
  unfold State.floodExpired
  rw [if_pos ht]
  exact if_neg hw

/-- The part with the flood ended and its flood-complete report counted (R103, R142). -/
def State.floodTold (s : State) : State :=
  { s with quench := s.quench.floodExpiry s.cfg.quench, trip := { s.trip with floodSeen := true } }

/-- Where one waits, it is the report that the response awaits, and may complete it (R142, R144). -/
theorem State.floodExpired_told (s : State) (ht : s.quench.floodTimer.isSome = true)
    (hw : s.seq.state = .tripping ∧ s.trip.response = some .stopFlood) :
    s.floodExpired = s.floodTold.tripProgress := by
  unfold State.floodExpired
  rw [if_pos ht]
  exact if_pos hw

/-- STOP_FLOOD goes on while its carriage has not stopped (R142). -/
theorem State.tripProgress_unstopped (s : State) (hr : s.trip.response = some .stopFlood)
    (hs : s.trip.stoppedSeen = false) : s.tripProgress = s := by
  unfold State.tripProgress TripUnit.done
  simp [hr, hs]

/-- The entry to TRIPPED behind the flood of a response (R142, R144). -/
theorem State.floodTold_entered (s : State) :
    let t := s.floodTold.enterTripped
    t.seq.state = .tripped ∧ t.quench.circuit.q3 = .closed ∧ t.quench.q3Owner = .none ∧
      t.travel.spindleCommand = 0 ∧ t.zones.openRec = none ∧ t.trip.record = s.trip.record ∧
      t.seq.scanClock = none ∧ Keeps s t [.seq, .travel, .quench, .trip, .zones, .store, .link] := by
  intro t
  have closed : t.quench.circuit.q3 = .closed ∧ t.quench.q3Owner = .none := by
    obtain ⟨circuit, owner⟩ := s.floodTold.quench.idling_kept s.cfg.quench.pumpIdle
    rw [← (s.quench.floodExpiry_q3 s.cfg.quench).1, ← (s.quench.floodExpiry_q3 s.cfg.quench).2,
      State.enterTripped_quench]
    split
    · exact ⟨congrArg (·.q3) circuit, owner⟩
    · exact ⟨rfl, rfl⟩
  have spindle : t.travel.spindleCommand = 0 := by
    rw [State.enterTripped_travel, Travel.setSpindle_eq]
  have ended : t.zones.openRec = none := by
    rw [State.enterTripped_zones]
    exact (Zones.close_count _ _ _ _).1
  refine ⟨by simp [t], closed.1, closed.2, spindle, ended, by simp [t, State.floodTold], by simp [t], ?_⟩
  simp [t, Keeps, State.floodTold]

/-! ### The timers of the Quench Unit -/

/-- A proving or dropout expiry: nothing where the timer does not run in its watch state, else the loss of the flow (R104, R105). -/
theorem exec_watchTimers (s : State) (k : Circuit) :
    exec (.provingTimerExpiry k) s = .next (if (s.quench.circuit.get k).watch = .proving ∧
        (s.quench.circuit.get k).proving.isSome = true then s.flowLost k else s) ∧
      exec (.dropoutTimerExpiry k) s = .next (if (s.quench.circuit.get k).watch = .proved ∧
        (s.quench.circuit.get k).dropout.isSome = true then s.flowLost k else s) := ⟨rfl, rfl⟩

theorem exec_floodTimerExpiry (s : State) : exec .floodTimerExpiry s = .next s.floodExpired := rfl

/-- The pump idle timer: nothing while it does not run, put off by a flood, else the pump OFF (R109). -/
theorem exec_pumpIdleTimerExpiry (s : State) :
    exec .pumpIdleTimerExpiry s = .next { s with
      quench := if s.quench.idleTimer.isNone then s.quench
        else if s.quench.q3Owner = .flood then { s.quench with idleTimer := none, idleDeferred := true }
        else { s.quench with pump := false, idleTimer := none, idleDeferred := false } } := rfl

/-- Settles O54: the watches from `flowLost_warns`, the flood from its two cases, the pump idle timer from its branches. -/
theorem quenchTimers : Obligations.QuenchTimers := by
  refine ⟨fun s k => ?_, fun s => ?_⟩
  · intro w short low
    obtain ⟨proving, dropout⟩ := exec_watchTimers s k
    have warns : s.cfg.trip.classFlow.get k = .warn → s.flowLost k = low := fun hc => by
      rw [s.flowLost_warns k hc]
      cases k <;> rfl
    have idle : ∀ (x : Watch) (timer : Option Nat), w.watch ≠ x ∨ timer = none →
        ¬(w.watch = x ∧ timer.isSome = true) := by
      rintro x timer (h | rfl) ⟨hx, ht⟩
      · exact h hx
      · cases ht
    rw [proving, dropout]
    refine ⟨fun h => ?_, fun h => ?_, fun hw ht hc => ?_, fun hw ht hc => ?_⟩
    · rw [if_neg (idle _ _ h)]
    · rw [if_neg (idle _ _ h)]
    · rw [if_pos ⟨hw, ht⟩, warns hc]
    · rw [if_pos ⟨hw, ht⟩, warns hc]
  · intro closed waits
    have expiry := s.quench.floodExpiry_eq s.cfg.quench
    have runs : s.quench.idleTimer.isSome = true → ¬s.quench.idleTimer.isNone = true := by
      cases s.quench.idleTimer <;> simp
    rw [exec_floodTimerExpiry, exec_pumpIdleTimerExpiry]
    refine ⟨fun ht => ?_, fun ht hw hd => ?_, fun ht hw hd => ?_, fun ht hw hs => ?_, fun ht hw hs hd => ?_,
      fun ht => ?_, fun ht ho => ?_, fun ht ho => ?_⟩
    case refine_1 =>
      unfold State.floodExpired
      rw [ht]
      rfl
    case refine_2 =>
      rw [s.floodExpired_alone ht hw, expiry, hd]
      rfl
    case refine_3 =>
      rw [s.floodExpired_alone ht hw, expiry, hd]
      rfl
    case refine_4 =>
      have done : s.floodTold.trip.done = true := by simp [TripUnit.done, State.floodTold, hw.2, hs]
      rw [s.floodExpired_told ht hw, s.floodTold.tripProgress_done hw.1 done]
      exact ⟨_, rfl, s.floodTold_entered⟩
    case refine_5 =>
      rw [s.floodExpired_told ht hw, s.floodTold.tripProgress_unstopped hw.2 hs, State.floodTold, expiry, hd]
      rfl
    case refine_6 => rw [if_pos (by rw [ht]; rfl)]
    case refine_7 => rw [if_neg (runs ht), if_pos ho]
    case refine_8 => rw [if_neg (runs ht), if_neg ho]

end Sys2Proof.Machine

namespace Sys2Proof.Machine

/-! ### What leaves the Measurement Sequencer as it is

Requests, trips, activations, ends of scans, samples and input changes leave all of it: burst, waiting requests and owed set change by
the expiries of its own timers and by conversions alone, and start afresh with RESET and RESTART (R114, R116, R125, R129). -/

namespace State

/-! #### Trips (R135 to R147) -/

@[simp] theorem tripProgress_meas (s : State) : s.tripProgress.meas = s.meas := by
  rcases s.tripProgress_cases with e | ⟨_, _, e⟩ <;> rw [e]
  exact s.enterTripped_meas

@[simp] theorem furtherTrip_meas (s : State) (src : Source) : (s.furtherTrip src).meas = s.meas := by
  rcases s.furtherTrip_cases src with e | ⟨_, e | e⟩ | ⟨_, e⟩ <;> rw [e]
  · rfl
  · exact State.tripProgress_meas _
  · exact State.tripProgress_meas _
  · rfl

@[simp] theorem latchingTrip_meas (s : State) (src : Source) (ch : Option Channel) :
    (s.latchingTrip src ch).meas = s.meas := by
  obtain ⟨u, st, ordered, ⟨_, e⟩ | e⟩ := s.latchingTrip_ordered src ch <;> rw [e]
  · exact ordered.meas
  · exact (State.enterTripped_meas u).trans ordered.meas

@[simp] theorem raise_meas (s : State) (src : Source) (ch : Option Channel) : (s.raise src ch).meas = s.meas := by
  unfold State.raise
  split
  · rfl
  · rfl
  · split
    · exact s.furtherTrip_meas src
    · exact s.latchingTrip_meas src ch

@[simp] theorem raiseIf_meas (s : State) (was now : Bool) (src : Source) (ch : Option Channel) :
    (s.raiseIf was now src ch).meas = s.meas := by
  unfold State.raiseIf
  split
  · exact s.raise_meas src ch
  · rfl

@[simp] theorem raisePresent_meas (s : State) (test : Source → Bool) : (s.raisePresent test).meas = s.meas := by
  unfold State.raisePresent
  generalize (Source.all.filter test).flatMap s.raisesOf = raises
  induction raises generalizing s with
  | nil => rfl
  | cons p ps ih => exact (ih _).trans (s.raise_meas p.1 p.2)

@[simp] theorem onTrails_meas (s : State) (f : Quench → Quench) : (s.onTrails f).meas = s.meas :=
  State.raiseIf_meas _ _ _ _ _

/-! #### Activations and ends of steps and scans (R25, R33, R35, R43 to R46) -/

@[simp] theorem runoutMotion_meas (s : State) (returning : Bool) : (s.runoutMotion returning).meas = s.meas := by
  unfold State.runoutMotion
  split_ifs <;> simp

@[simp] theorem runoutEntry_meas (s : State) (c : EndCause) (stop : Option Int) :
    (s.runoutEntry c stop).meas = s.meas := by
  unfold State.runoutEntry
  simp

@[simp] theorem vacantCheck_meas (s : State) : s.vacantCheck.meas = s.meas := by
  unfold State.vacantCheck
  split_ifs <;> simp

@[simp] theorem handQuench_meas (s : State) (a : Admitted) : (s.handQuench a).meas = s.meas := by
  unfold State.handQuench
  split
  · exact s.onTrails_meas _
  · exact s.onTrails_meas _
  · rfl
  · rfl

@[simp] theorem activate_meas (s : State) (a : Admitted) : (s.activate a).meas = s.meas := by
  unfold State.activate
  simp

@[simp] theorem proceed_meas (s : State) : s.proceed.meas = s.meas := by
  unfold State.proceed
  split
  · split
    · split <;> rfl
    · exact s.activate_meas _
  · rfl

@[simp] theorem clearActive_meas (s : State) (a : Admitted) : (s.clearActive a).meas = s.meas := by
  unfold State.clearActive
  dsimp only
  split <;> rfl

@[simp] theorem stepEnd_meas (s : State) : s.stepEnd.meas = s.meas := by
  unfold State.stepEnd
  split
  · rfl
  · dsimp only
    split_ifs <;> simp

@[simp] theorem sourceHead_meas (s : State) : s.sourceHead.meas = s.meas := by
  unfold State.sourceHead State.resumeLoader
  dsimp only
  repeat' split
  all_goals rfl

/-! #### A position sample (R48) -/

@[simp] theorem sampledPart_meas (s : State) (r : Reading) : (s.sampledPart r).meas = s.meas := by
  obtain ⟨z, t, e, _⟩ := s.sampledPart_spec r
  rw [e]

@[simp] theorem testLimits_meas (s : State) (r : Reading) : (s.testLimits r).meas = s.meas := by
  unfold State.testLimits State.testSoft State.testLow State.testHigh State.testEncoder State.testFollow
  simp

theorem Ordered.meas {s u : State} (h : s.Ordered u) : u.meas = s.meas := by
  obtain ⟨x, rfl, _⟩ := h
  rfl

@[simp] theorem modeTested_meas (s : State) (r : Reading) : (s.modeTested r).meas = s.meas := by
  have tested := ((s.seekSample_ordered r.refSwitch).trans (State.arrivalSample_ordered _)).meas
  unfold State.modeTested State.scanSample
  split
  · exact (State.stepEnd_meas _).trans tested
  · exact (State.brakeSample_ordered _).meas.trans tested

@[simp] theorem positionSample_meas (s : State) (r : Reading) : (s.positionSample r).meas = s.meas := by
  rw [positionSample_eq]
  simp

/-! #### Requests that neither write the MEASURE group nor restart the part -/

theorem serveConfig_meas {α : Type} (s : State) (tag : Byte) (want : Nat) (items : List Int)
    (read : Option α) (write : α → State → State) (h : ∀ c u, (write c u).meas = u.meas) :
    (s.serveConfig tag want items read write).meas = s.meas := by
  unfold State.serveConfig
  dsimp only
  split
  · split
    · exact h _ _
    · rfl
  · rfl

@[simp] theorem stopEffect_meas (s : State) : s.stopEffect.meas = s.meas := by
  unfold State.stopEffect
  split
  · exact s.exitPrestart_meas _
  · exact s.runoutEntry_meas _ _
  all_goals rfl

@[simp] theorem chooseSpin_meas (s : State) (step : ScanStep) : (s.chooseSpin step).meas = s.meas := by
  unfold State.chooseSpin
  split
  · split <;> rfl
  · rfl

@[simp] theorem acceptStep_meas (s : State) (step : ScanStep) : (s.acceptStep step).meas = s.meas := by
  rw [State.acceptStep_eq]
  simp [State.joined]

@[simp] theorem trimEffect_meas (s : State) (t sp : Nat) (m : TrimMethod) : (s.trimEffect t sp m).meas = s.meas := by
  unfold State.trimEffect State.retrim
  dsimp only
  repeat' split
  all_goals rfl

@[simp] theorem acceptStart_meas (s : State) (p : StartPlan) : (s.acceptStart p).meas = s.meas := by
  rw [State.acceptStart_eq]
  rfl

@[simp] theorem serveHome_meas (s : State) (tag : Byte) : (s.serveHome tag).meas = s.meas := by
  unfold State.serveHome
  dsimp only
  split <;> rfl

@[simp] theorem serveMoveTo_meas (s : State) (tag : Byte) (p : Int) (v : Nat) :
    (s.serveMoveTo tag p v).meas = s.meas := by
  unfold State.serveMoveTo
  dsimp only
  split <;> rfl

/-- Both STARTs answer, and accept the plan on OK (R23, R24). -/
theorem start_meas (s : State) (kind tag : Byte) (a : Answer) (p : StartPlan) :
    (if a.1 = .ok then (s.answer kind tag a).acceptStart p else s.answer kind tag a).meas = s.meas := by
  split
  · exact State.acceptStart_meas _ _
  · rfl

@[simp] theorem serveStep_meas (s : State) (tag : Byte) (r : StepRecord) : (s.serveStep tag r).meas = s.meas := by
  unfold State.serveStep
  dsimp only
  split
  · split
    · exact State.acceptStep_meas _ _
    · rfl
  · rfl

@[simp] theorem serveTrim_meas (s : State) (tag : Byte) (t sp m : Nat) : (s.serveTrim tag t sp m).meas = s.meas := by
  unfold State.serveTrim
  dsimp only
  split
  · exact State.trimEffect_meas _ _ _ _
  · rfl

/-! #### The part's own steps, timers and inputs -/

@[simp] theorem admission_meas (s : State) : s.admission.meas = s.meas := by
  have falls : ∀ u : State, u.flowFall.meas = u.meas := fun u => by
    unfold State.flowFall
    split <;> rfl
  unfold State.admission State.programError
  dsimp only
  split
  · split
    · split_ifs <;> simp [falls]
    · rfl
  · rfl

@[simp] theorem loaderAppend_meas (s : State) : s.loaderAppend.meas = s.meas := by
  unfold State.loaderAppend
  split
  · split
    · split <;> simp
    · rfl
  · rfl

@[simp] theorem enterRunning_meas (s : State) : s.enterRunning.meas = s.meas := by
  unfold State.enterRunning
  split <;> simp

@[simp] theorem stepTick_meas (s : State) : s.stepTick.meas = s.meas := by
  unfold State.stepTick
  dsimp only
  split
  · rfl
  · split <;> simp

@[simp] theorem prestartTimeout_meas (s : State) : s.prestartTimeout.meas = s.meas := by
  unfold State.prestartTimeout
  split <;> simp

/-- A lost flow is its raise (R104, R105, R107). -/
@[simp] theorem flowLost_meas (s : State) (k : Circuit) : (s.flowLost k).meas = s.meas := by
  obtain ⟨z, e, _⟩ := s.flowLost_eq k
  exact (congrArg State.meas e).trans (State.raise_meas _ _ _)

@[simp] theorem floodExpired_meas (s : State) : s.floodExpired.meas = s.meas := by
  unfold State.floodExpired
  dsimp only
  split_ifs <;> simp

@[simp] theorem coilWaterExpired_meas (s : State) : s.coilWaterExpired.meas = s.meas := by
  unfold State.coilWaterExpired
  split <;> simp

@[simp] theorem lowCountReached_meas (s : State) : s.lowCountReached.meas = s.meas := by
  unfold State.lowCountReached
  split <;> simp

@[simp] theorem stoppingComplete_meas (s : State) : s.stoppingComplete.meas = s.meas := by
  have homes : ∀ u : State, u.homingEnd.meas = u.meas := fun u => by
    unfold State.homingEnd
    split <;> rfl
  have trips : ∀ u : State, u.trippingStopped.meas = u.meas := fun u => by
    unfold State.trippingStopped
    split <;> simp
  have turns : ∀ u : State, u.beginReturn.meas = u.meas := fun u => by
    unfold State.beginReturn
    split <;> rfl
  unfold State.stoppingComplete
  dsimp only
  repeat' split
  all_goals simp [homes, trips, turns]

@[simp] theorem arrived_meas (s : State) : s.arrived.meas = s.meas := by
  unfold State.arrived
  split
  · split <;> rfl
  · rfl

@[simp] theorem returned_meas (s : State) : s.returned.meas = s.meas := by
  unfold State.returned
  split
  · split <;> simp
  · rfl

@[simp] theorem turnStoppedActivation_meas (s : State) : s.turnStoppedActivation.meas = s.meas := by
  unfold State.turnStoppedActivation
  split
  · split <;> simp
  · rfl

/-- The owners' tests leave what was measured (R115). -/
@[simp] theorem publish_meas (s : State) (c : Channel) (v : Int) : (s.publish c v).meas = s.meas := by
  cases c
  case coilI => exact State.raiseIf_meas _ _ _ _ _
  case pyro => exact State.raiseIf_meas _ _ _ _ _
  case qTemp => exact State.raiseIf_meas _ _ _ _ _
  case qPress =>
    show (s.takePressure v).meas = _
    unfold State.takePressure
    dsimp only
    split
    · rfl
    · exact State.vacantCheck_meas _
  all_goals rfl

/-- The result of a burst changes its channel's record alone (R119, R127). -/
theorem burstResult_meas (s : State) (b : Burst) :
    ∃ chan, (s.burstResult b).meas = { s.meas with chan := chan } := by
  cases hk : b.kind with
  | sample =>
    rw [s.burstResult_sample b hk, State.raiseIf_meas]
    unfold State.toldSample
    dsimp only
    split
    · exact ⟨_, State.publish_meas _ _ _⟩
    · exact ⟨_, rfl⟩
  | calibration => exact ⟨_, by rw [s.burstResult_calibration b hk]; rfl⟩

end State

end Sys2Proof.Machine

namespace Sys2Proof.Machine

/-! ### What a command does to the Measurement Sequencer (R114, R116, R117, R125, R128, R129) -/

/-- What a command may do to the burst, the waiting requests and the owed set. -/
inductive MeasChange (m : Meas) : Meas → Prop
  | records (chan : PerChannel ChannelRec) (cal : Nat) : MeasChange m { m with chan := chan, calTimer := cal }
  | resets (c : MeasureCfg) : MeasChange m (.reset c)
  | samples (ch : Channel) (chan : PerChannel ChannelRec) (c : MeasureCfg) (on : Bool) :
      MeasChange m (Meas.grant { m.join ch .sample with chan := chan } c on)
  | calibrates (cal : Nat) (c : MeasureCfg) (on : Bool) :
      MeasChange m (Meas.grant { m.calExpiry c on with calTimer := cal } c on)
  | converts (b b' : Burst) : m.converter = some b → MeasChange m { m with converter := some b' }
  | completes (chan : PerChannel ChannelRec) (c : MeasureCfg) (on : Bool) :
      MeasChange m (Meas.grant { m with converter := none, chan := chan } c on)

namespace MeasChange

theorem of_same {m m' : Meas} (e : m' = m) : MeasChange m m' := by
  subst e
  exact .records m'.chan m'.calTimer

theorem serveRestart (s : State) (tag : Byte) : MeasChange s.meas (s.serveRestart tag).meas := by
  unfold State.serveRestart State.raiseTrips
  dsimp only
  split
  · rw [State.raisePresent_meas]
    exact .resets s.cfg.measure
  · exact of_same rfl

theorem serveMeasure (s : State) (tag : Byte) (xs : List Int) : MeasChange s.meas (s.serveMeasure tag xs).meas := by
  unfold State.serveMeasure State.serveConfig
  dsimp only
  split
  · split
    · exact .records _ _
    · exact of_same rfl
  · exact of_same rfl

/-- Serving a request that has been taken: RESTART and the MEASURE group alone touch it (R128, R129). -/
theorem serve (s : State) (tag : Byte) (r : Request) : MeasChange s.meas (s.serve tag r).meas := by
  have written : ∀ (want : Nat) (xs : List Int) {α : Type} (read : Option α) (f : α → ConfigGroups → ConfigGroups),
      MeasChange s.meas (s.serveConfig tag want xs read fun c t => t.onCfg (f c)).meas :=
    fun want xs _ read f => of_same (s.serveConfig_meas tag want xs read _ fun _ _ => rfl)
  cases r
  case restart => exact serveRestart s tag
  case configureMeasure xs => exact serveMeasure s tag xs
  case configureMachine xs => exact written 13 xs _ _
  case configureQuench xs => exact written 13 xs _ _
  case configureFlow xs => exact written 2 xs _ _
  case configurePrestart xs => exact written 1 xs _ _
  case configureTrip xs => exact of_same (s.serveConfig_meas tag 25 xs _ _ fun _ _ => State.raisePresent_meas _ _)
  case home => exact of_same (s.serveHome_meas tag)
  case moveTo p v => exact of_same (s.serveMoveTo_meas tag p v)
  case stop => exact of_same (State.stopEffect_meas _)
  case startProfile p g => exact of_same (s.start_meas _ tag _ _)
  case startStream g ws => exact of_same (s.start_meas _ tag _ _)
  case step r => exact of_same (s.serveStep_meas tag r)
  case trim t sp m => exact of_same (s.serveTrim_meas tag t sp m)
  case forceTrip => exact of_same (State.raise_meas _ _ _)
  case status | inhibitOn | inhibitOff | profileList | recordGet => exact of_same rfl
  case clearTrip | profileOpen | profileData | profileClose | profileErase | recordRelease =>
    refine of_same ?_
    dsimp only [State.serve, State.serveClearTrip, State.serveOpen, State.serveData, State.serveClose,
      State.serveErase, State.serveRelease]
    split <;> rfl

theorem request (s : State) (tag : Byte) (r : Request) :
    MeasChange s.meas (s.request tag r (·.serve tag r)).meas := by
  unfold State.request
  split_ifs
  · exact of_same rfl
  · exact serve s tag r
  · exact of_same rfl

theorem dispatch (s : State) : MeasChange s.meas s.dispatch.meas := by
  unfold State.dispatch
  split
  · exact of_same rfl
  · split
    · dsimp only
      split
      · exact of_same rfl
      · exact of_same rfl
      · exact serve (s.onLink _) _ _
    · exact of_same rfl

/-- A conversion is summed, or completes the burst with its result, and a grant follows (R114, R117). -/
theorem conversionComplete (s : State) (code : Nat) : MeasChange s.meas (s.conversionComplete code).meas := by
  unfold State.conversionComplete
  split
  · exact of_same rfl
  · rename_i b hb
    dsimp only
    split
    · obtain ⟨chan, e⟩ := (s.onMeas ({ · with converter := none })).burstResult_meas (b.convert code)
      unfold State.grant
      rw [State.onMeas_meas, e]
      exact .completes chan _ _
    · exact .converts b _ hb

/-- Every command does one of these. -/
theorem exec {s t : State} (c : Instr) (e : Machine.exec c s = .next t) : MeasChange s.meas t.meas := by
  cases hr : c.request with
  | some p =>
    rw [exec_request c p.1 p.2 s hr] at e
    cases e
    exact request s _ _
  | none =>
    cases c
    case reset =>
      cases e
      show MeasChange s.meas (State.raisePresent _ _).meas
      rw [State.raisePresent_meas]
      exact .resets _
    case dispatch => cases e; exact dispatch s
    case powerUpdate => cases e; exact .records _ _
    case requestTimerExpiry ch => cases e; exact .samples ch _ _ _
    case calibrationTimerExpiry => cases e; exact .calibrates _ _ _
    case conversionComplete code => cases e; exact conversionComplete s code
    case frameReceived | receiveGapTimeout | byteReceived | pumpIdleTimerExpiry => cases e; exact of_same rfl
    case frameSent =>
      cases e
      refine of_same ?_
      unfold State.frameSent
      split <;> rfl
    case positionSample => cases e; exact of_same (s.positionSample_meas _)
    case stepTimerExpiry => cases e; exact of_same s.stepTick_meas
    case prestartTimeout => cases e; exact of_same s.prestartTimeout_meas
    case provingTimerExpiry k =>
      cases e
      refine of_same ?_
      unfold State.provingExpiry
      dsimp only
      split <;> simp
    case dropoutTimerExpiry k =>
      cases e
      refine of_same ?_
      unfold State.dropoutExpiry
      dsimp only
      split <;> simp
    case floodTimerExpiry => cases e; exact of_same s.floodExpired_meas
    case coilWaterTimerExpiry => cases e; exact of_same s.coilWaterExpired_meas
    case lowCountReached => cases e; exact of_same s.lowCountReached_meas
    case readyInputChange | faultInputChange | emergencyStopInput | encoderFaultInput =>
      cases e
      exact of_same (State.raiseIf_meas _ _ _ _ _)
    case stoppingComplete => cases e; exact of_same s.stoppingComplete_meas
    case arrived => cases e; exact of_same s.arrived_meas
    case returned => cases e; exact of_same s.returned_meas
    case turnStoppedActivation => cases e; exact of_same s.turnStoppedActivation_meas
    case enterRunning => cases e; exact of_same s.enterRunning_meas
    case admission => cases e; exact of_same s.admission_meas
    case loaderAppend => cases e; exact of_same s.loaderAppend_meas
    all_goals cases hr

end MeasChange

end Sys2Proof.Machine

namespace Sys2Proof

/-! ### Channel numbers and their round (R115, R117) -/

theorem Channel.mem_all (c : Channel) : c ∈ Channel.all := by cases c <;> decide

theorem Channel.num_inj {a b : Channel} (h : a.num = b.num) : a = b :=
  List.inj_on_of_nodup_map (f := Channel.num) (by decide) a.mem_all b.mem_all h

/-- Channels passed over in the round from one channel before another comes (R117). -/
def Channel.turnFrom (p c : Channel) : Nat := (c.num + 9 - p.num) % 9

end Sys2Proof

namespace Sys2Proof.Machine

/-! ### The choice among the waiting requests (R117) -/

theorem mem_channelsFrom (p c : Channel) : c ∈ channelsFrom 9 p := by
  have round : ∀ x ∈ Channel.all, x ∈ channelsFrom 9 p := by cases p <;> decide
  exact round c c.mem_all

/-- The round from a channel takes the channels by their turns. -/
theorem channelsFrom_turns (p : Channel) :
    (channelsFrom 9 p).Pairwise fun a b => Channel.turnFrom p a < Channel.turnFrom p b := by
  cases p <;> decide

theorem Waiting.isOf_iff (w : Waiting) (c : Channel) (k : BurstKind) :
    w.isOf c k = true ↔ w.channel = c ∧ w.kind = k := by
  simp [Waiting.isOf]

/-- Pass counts that have been compared with the relax limit are not changed by a second comparison (R118). -/
theorem Waiting.relax_relax (w : Waiting) (limit : Nat) : (w.relax limit).relax limit = w.relax limit := by
  have twice : ∀ p b : Bool, ((p || b) || b) = (p || b) := by decide
  exact congrArg (fun p => { w with promoted := p }) (twice _ _)

theorem mem_insertChannel {c x : Channel} {l : List Channel} : x ∈ insertChannel c l ↔ x = c ∨ x ∈ l := by
  induction l with
  | nil => simp [insertChannel]
  | cons y ys ih =>
    unfold insertChannel
    split
    · rename_i e
      subst e
      simp
    · split
      · exact List.mem_cons
      · rw [List.mem_cons, List.mem_cons, ih]
        tauto

namespace Meas

/-- What a class's search finds at a channel: a request that holds the class, the SAMPLE where there is one (R117). -/
structure Offers (m : Meas) (k : ChannelClass) (c : Channel) (w : Waiting) : Prop where
  waits : w ∈ m.waiting
  channel : w.channel = c
  cls : w.cls = k
  sampleFirst : w.kind = .calibration → ∀ x ∈ m.waiting, x.channel = c → x.kind = .sample → x.cls ≠ k

theorem candidate_offers {m : Meas} {k : ChannelClass} {c : Channel} {w : Waiting}
    (h : m.candidate k c = some w) : m.Offers k c w := by
  have found : ∀ kind, (m.waiting.find? fun x => x.isOf c kind && x.cls == k) = some w →
      w ∈ m.waiting ∧ (w.channel = c ∧ w.kind = kind) ∧ w.cls = k := fun kind hf => by
    have holds := List.find?_some hf
    rw [Bool.and_eq_true, Waiting.isOf_iff, beq_iff_eq] at holds
    exact ⟨List.mem_of_find?_eq_some hf, holds⟩
  rcases Option.or_eq_some_iff.1 h with hs | ⟨hn, hc⟩
  · obtain ⟨mem, ⟨channel, kind⟩, cls⟩ := found .sample hs
    exact ⟨mem, channel, cls, fun hk => by rw [kind] at hk; cases hk⟩
  · obtain ⟨mem, ⟨channel, _⟩, cls⟩ := found .calibration hc
    refine ⟨mem, channel, cls, fun _ x hx hxc hxs hxk => List.find?_eq_none.1 hn x hx ?_⟩
    rw [Bool.and_eq_true, Waiting.isOf_iff, beq_iff_eq]
    exact ⟨⟨hxc, hxs⟩, hxk⟩

/-- A channel without a candidate has no request that holds the class. -/
theorem candidate_none {m : Meas} {k : ChannelClass} {c : Channel} (h : m.candidate k c = none) :
    ∀ x ∈ m.waiting, x.channel = c → x.cls ≠ k := by
  intro x hx hc hk
  obtain ⟨samples, calibrations⟩ := Option.or_eq_none_iff.1 h
  have holds : (x.isOf c x.kind && x.cls == k) = true := by
    rw [Bool.and_eq_true, Waiting.isOf_iff, beq_iff_eq]
    exact ⟨⟨hc, rfl⟩, hk⟩
  cases hkind : x.kind <;> rw [hkind] at holds
  · exact List.find?_eq_none.1 samples x hx holds
  · exact List.find?_eq_none.1 calibrations x hx holds

/-- A class's search finds nothing exactly where no request holds the class. -/
theorem search_none {m : Meas} {k : ChannelClass} : m.search k = none ↔ ∀ x ∈ m.waiting, x.cls ≠ k := by
  unfold Meas.search
  rw [Option.map_eq_none_iff, List.findSome?_eq_none_iff]
  refine ⟨fun h x hx => candidate_none (h x.channel (mem_channelsFrom _ _)) x hx rfl, fun h c _ => ?_⟩
  by_contra hne
  obtain ⟨w, hw⟩ := Option.ne_none_iff_exists'.1 hne
  exact h w (candidate_offers hw).waits (candidate_offers hw).cls

/-- A class's search finds the first channel's request in the round from the class's pointer. -/
theorem search_some {m : Meas} {k j : ChannelClass} {w : Waiting} (h : m.search k = some (w, j)) :
    j = k ∧ m.Offers k w.channel w ∧ ∀ x ∈ m.waiting, x.cls = k →
      Channel.turnFrom (m.pointer k) w.channel ≤ Channel.turnFrom (m.pointer k) x.channel := by
  obtain ⟨v, found, e⟩ := Option.map_eq_some_iff.1 h
  cases e
  obtain ⟨before, c, behind, round, offered, passed⟩ := List.findSome?_eq_some_iff.1 found
  have offers := candidate_offers offered
  obtain rfl := offers.channel
  refine ⟨rfl, offers, fun x hx hk => ?_⟩
  have turns := channelsFrom_turns (m.pointer k)
  have place := mem_channelsFrom (m.pointer k) x.channel
  rw [round] at turns place
  rcases List.mem_append.1 place with early | late
  · exact absurd hk (candidate_none (passed _ early) x hx rfl)
  · rcases List.mem_cons.1 late with e | later
    · rw [e]
    · exact Nat.le_of_lt (List.rel_of_pairwise_cons (List.pairwise_append.1 turns).2.1 later)

/-- The choice is the search of a class, and no higher class is held. -/
theorem choose_some {m : Meas} {w : Waiting} {k : ChannelClass} (h : m.choose = some (w, k)) :
    m.search k = some (w, k) ∧ (k ≠ .urgent → ∀ x ∈ m.waiting, x.cls ≠ .urgent) ∧
      (k = .background → ∀ x ∈ m.waiting, x.cls ≠ .normal) := by
  rcases Option.or_eq_some_iff.1 h with higher | ⟨none, background⟩
  · rcases Option.or_eq_some_iff.1 higher with urgent | ⟨none, normal⟩
    · obtain rfl := (search_some urgent).1
      exact ⟨urgent, fun hk => absurd rfl hk, nofun⟩
    · obtain rfl := (search_some normal).1
      exact ⟨normal, fun _ => search_none.1 none, nofun⟩
  · obtain rfl := (search_some background).1
    obtain ⟨urgent, normal⟩ := Option.or_eq_none_iff.1 none
    exact ⟨background, fun _ => search_none.1 urgent, fun _ => search_none.1 normal⟩

theorem choose_mem {m : Meas} {w : Waiting} {k : ChannelClass} (h : m.choose = some (w, k)) : w ∈ m.waiting :=
  (search_some (choose_some h).1).2.1.waits

/-- Nothing is chosen exactly where nothing waits. -/
theorem choose_none {m : Meas} : m.choose = none ↔ m.waiting = [] := by
  unfold Meas.choose
  rw [Option.or_eq_none_iff, Option.or_eq_none_iff, search_none, search_none, search_none]
  constructor
  · rintro ⟨⟨urgent, normal⟩, background⟩
    refine List.eq_nil_iff_forall_not_mem.2 fun x hx => ?_
    cases hk : x.cls
    · exact urgent x hx hk
    · exact normal x hx hk
    · exact background x hx hk
  · intro h
    rw [h]
    exact ⟨⟨nofun, nofun⟩, nofun⟩

/-! ### Withdrawals and grants (R117, R118, R126) -/

/-- The chosen request is withdrawn: a CALIBRATION of an URGENT-class channel, with power on (R126). -/
def withdraws (powerOn : Bool) (w : Waiting) : Bool :=
  w.kind == .calibration && w.channel.cls == .urgent && powerOn

theorem withdraws_iff {powerOn : Bool} {w : Waiting} :
    withdraws powerOn w = true ↔ w.kind = .calibration ∧ w.channel.cls = .urgent ∧ powerOn = true := by
  simp [withdraws, and_assoc]

theorem grantGo_empty (c : MeasureCfg) (on : Bool) (n : Nat) {m : Meas} (h : m.waiting = []) :
    Meas.grantGo c on n m = m := by
  cases n with
  | zero => rfl
  | succ n =>
    unfold Meas.grantGo
    rw [choose_none.2 h]

theorem grantGo_withdrawn {c : MeasureCfg} {on : Bool} {m : Meas} {w : Waiting} {k : ChannelClass} (n : Nat)
    (h : m.choose = some (w, k)) (hw : withdraws on w = true) :
    Meas.grantGo c on (n + 1) m = Meas.grantGo c on n (m.withdraw c w) := by
  rw [Meas.grantGo, h]
  exact if_pos hw

theorem grantGo_granted {c : MeasureCfg} {on : Bool} {m : Meas} {w : Waiting} {k : ChannelClass} (n : Nat)
    (h : m.choose = some (w, k)) (hw : withdraws on w = false) :
    Meas.grantGo c on (n + 1) m = m.granted c w k := by
  rw [Meas.grantGo, h]
  exact if_neg (Bool.eq_false_iff.1 hw)

/-- A withdrawal takes a waiting request away, so that fuel beyond their number is enough. -/
theorem withdraw_shorter {m : Meas} (c : MeasureCfg) {w : Waiting} (h : w ∈ m.waiting) :
    (m.withdraw c w).waiting.length < m.waiting.length := by
  refine List.length_filter_lt_length_iff_exists.2 ⟨w, h, ?_⟩
  simp [Waiting.isOf]

/-- The fuel of the search: enough is enough. -/
theorem grantGo_fuel (c : MeasureCfg) (on : Bool) (n n' : Nat) (m : Meas) (h : m.waiting.length < n)
    (h' : m.waiting.length < n') : Meas.grantGo c on n m = Meas.grantGo c on n' m := by
  induction n generalizing m n' with
  | zero => exact absurd h (Nat.not_lt_zero _)
  | succ n ih =>
    obtain ⟨n', rfl⟩ : ∃ j, n' = j + 1 := ⟨n' - 1, by omega⟩
    cases chosen : m.choose with
    | none =>
      have empty := choose_none.1 chosen
      rw [grantGo_empty c on _ empty, grantGo_empty c on _ empty]
    | some p =>
      obtain ⟨w, k⟩ := p
      cases hw : withdraws on w
      · rw [grantGo_granted n chosen hw, grantGo_granted n' chosen hw]
      · have shorter := withdraw_shorter c (choose_mem chosen)
        rw [grantGo_withdrawn n chosen hw, grantGo_withdrawn n' chosen hw]
        exact ih _ _ (by omega) (by omega)

/-- The waiting requests with their pass counts compared with the relax limit in force (R118, R128). -/
def aged (m : Meas) (c : MeasureCfg) : Meas := { m with waiting := m.waiting.map (·.relax c.relax) }

theorem grant_busy {m : Meas} (c : MeasureCfg) (on : Bool) (h : m.converter.isSome = true) : m.grant c on = m := by
  obtain ⟨b, hb⟩ := Option.isSome_iff_exists.1 h
  unfold Meas.grant
  rw [hb]

theorem grant_free {m : Meas} (c : MeasureCfg) (on : Bool) (h : m.converter = none) :
    m.grant c on = Meas.grantGo c on (m.waiting.length + 1) (m.aged c) := by
  unfold Meas.grant
  split
  · rename_i busy
    exact absurd busy (by rw [h]; nofun)
  · rfl

theorem grant_none {m : Meas} (c : MeasureCfg) (on : Bool) (h : m.waiting = []) : m.grant c on = m := by
  cases free : m.converter with
  | some b => exact grant_busy c on (by rw [free]; rfl)
  | none =>
    have empty : m.aged c = m := by
      unfold Meas.aged
      rw [h, List.map_nil, ← h]
    rw [grant_free c on free, empty, grantGo_empty c on _ h]

/-! ### One waiting request of each channel and kind (R116, R117, R125) -/

/-- At most one request of each channel and kind waits, and URGENT channels alone are owed. -/
def Single (m : Meas) : Prop :=
  (m.waiting.map fun w => (w.channel, w.kind)).Nodup ∧ ∀ c ∈ m.owed, c.cls = .urgent

/-- So it is, and nothing waits beside a FREE converter: what `MeasInv` reads. -/
def Arbitrated (m : Meas) : Prop := m.Single ∧ (m.converter = none → m.waiting = [])

namespace Single

/-- Fewer waiting requests, and changes of their counts and marks. -/
theorem of_sublist {m m' : Meas} (h : m.Single)
    (sub : (m'.waiting.map fun w => (w.channel, w.kind)).Sublist (m.waiting.map fun w => (w.channel, w.kind)))
    (owed : ∀ c ∈ m'.owed, c ∈ m.owed ∨ c.cls = .urgent) : m'.Single :=
  ⟨h.1.sublist sub, fun c hc => (owed c hc).elim (h.2 c) id⟩

/-- A request is absorbed by the one waiting, or joins where there is none (R116). -/
theorem join {m : Meas} (h : m.Single) (c : Channel) (k : BurstKind) : (m.join c k).Single := by
  obtain ⟨nodup, owed⟩ := h
  unfold Meas.join
  split
  · exact ⟨nodup, owed⟩
  · rename_i absent
    refine ⟨?_, owed⟩
    rw [List.map_append]
    refine nodup.append (List.nodup_singleton _) ?_
    rw [List.map_singleton, List.disjoint_singleton]
    intro mem
    obtain ⟨w, hw, key⟩ := List.mem_map.1 mem
    exact absent (List.any_eq_true.2 ⟨w, hw, (w.isOf_iff c k).2 (Prod.mk.inj key)⟩)

theorem aged {m : Meas} (h : m.Single) (c : MeasureCfg) : (m.aged c).Single := by
  refine h.of_sublist ?_ fun _ => .inl
  rw [Meas.aged, List.map_map]
  exact List.Sublist.refl _

theorem without {m m' : Meas} (h : m.Single) (w : Waiting) (hw : m'.waiting = m.without w)
    (owed : ∀ c ∈ m'.owed, c ∈ m.owed ∨ c.cls = .urgent) : m'.Single := by
  refine h.of_sublist ?_ owed
  rw [hw]
  exact List.Sublist.map _ List.filter_sublist

end Single

theorem mem_withdraw_owed {m : Meas} {c : MeasureCfg} {w : Waiting} {x : Channel} :
    x ∈ (m.withdraw c w).owed ↔ x ∈ m.owed ∨ (c.calMode = .rotate ∧ x = w.channel) := by
  unfold Meas.withdraw
  dsimp only
  split
  · rename_i rotate
    rw [mem_insertChannel]
    simp only [rotate, true_and]
    exact or_comm
  · rename_i other
    simp only [other, false_and, or_false]

namespace Single

/-- A channel that is owed by a withdrawal is of the URGENT class (R126). -/
theorem withdraw {m : Meas} (h : m.Single) (c : MeasureCfg) {w : Waiting} (hw : w.channel.cls = .urgent) :
    (m.withdraw c w).Single := by
  refine h.without w rfl fun x hx => ?_
  rcases mem_withdraw_owed.1 hx with hx | ⟨_, rfl⟩
  · exact .inl hx
  · exact .inr hw

/-- A grant takes one request away and passes the others by (R117, R118). -/
theorem granted {m : Meas} (h : m.Single) (c : MeasureCfg) (w : Waiting) (k : ChannelClass) :
    (m.granted c w k).Single := by
  have owed : (m.granted c w k).owed = m.owed := by cases k <;> rfl
  refine h.of_sublist ?_ fun x hx => .inl (owed ▸ hx)
  unfold Meas.granted
  rw [List.map_map]
  exact List.Sublist.map _ List.filter_sublist

/-- With fuel beyond the waiting requests, the search ends with a burst or with nothing waiting. -/
theorem grantGo {m : Meas} (h : m.Single) (c : MeasureCfg) (on : Bool) (n : Nat) (hn : m.waiting.length < n) :
    (Meas.grantGo c on n m).Arbitrated := by
  induction n generalizing m with
  | zero => exact absurd hn (Nat.not_lt_zero _)
  | succ n ih =>
    cases chosen : m.choose with
    | none =>
      have empty := choose_none.1 chosen
      rw [grantGo_empty c on _ empty]
      exact ⟨h, fun _ => empty⟩
    | some p =>
      obtain ⟨w, k⟩ := p
      cases hw : withdraws on w
      · rw [grantGo_granted n chosen hw]
        exact ⟨h.granted c w k, nofun⟩
      · obtain ⟨_, urgent, _⟩ := withdraws_iff.1 hw
        have shorter := withdraw_shorter c (choose_mem chosen)
        rw [grantGo_withdrawn n chosen hw]
        exact ih (h.withdraw c urgent) (by omega)

theorem grant {m : Meas} (h : m.Single) (c : MeasureCfg) (on : Bool) : (m.grant c on).Arbitrated := by
  cases free : m.converter with
  | some b =>
    rw [grant_busy c on (by rw [free]; rfl)]
    exact ⟨h, fun e => by rw [free] at e; cases e⟩
  | none =>
    rw [grant_free c on free]
    exact (h.aged c).grantGo c on _ (by simp [Meas.aged])

/-- Timers, channel records and the calibration pointer are free. -/
theorem of_same {m m' : Meas} (h : m.Single) (waiting : m'.waiting = m.waiting) (owed : m'.owed = m.owed) :
    m'.Single := by
  unfold Single
  rw [waiting, owed]
  exact h

/-- The walk owes the channels that it finds ineligible: URGENT ones (R125). -/
theorem calWalk {m : Meas} (h : m.Single) (on : Bool) (n : Nat) : (m.calWalk on n).Single := by
  induction n generalizing m with
  | zero => exact h
  | succ n ih =>
    unfold Meas.calWalk
    split
    · exact (h.join m.calPointer .calibration).of_same rfl rfl
    · rename_i barred
      refine ih (h.of_sublist (List.Sublist.refl _) fun x hx => ?_)
      rcases mem_insertChannel.1 hx with rfl | hx
      · simp only [eligible, Bool.or_eq_true, bne_iff_ne, not_or, not_not] at barred
        exact .inr barred.1
      · exact .inl hx

/-- A calibration expiry queues one channel or all nine, and owes URGENT ones (R125, R126). -/
theorem calExpiry {m : Meas} (h : m.Single) (c : MeasureCfg) (on : Bool) : (m.calExpiry c on).Single := by
  have every : ∀ (l : List Channel) (a : Meas), a.Single →
      (l.foldl (fun a ch => a.join ch .calibration) a).Single := fun l => by
    induction l with
    | nil => exact fun _ ha => ha
    | cons ch l ih => exact fun a ha => ih _ (ha.join ch .calibration)
  unfold Meas.calExpiry
  split
  · split
    · rename_i ch _
      have joined := h.join ch .calibration
      refine joined.of_sublist (List.Sublist.refl _) fun x hx => .inl ?_
      have same : (m.join ch .calibration).owed = m.owed := by
        unfold Meas.join
        split <;> rfl
      rw [same]
      exact List.mem_of_mem_filter hx
    · exact h.calWalk on 9
  · split
    · exact h
    · exact every _ _ h

end Single

end Meas

/-- Every change that a command makes keeps the waiting requests single, and ends with a burst or with nothing waiting. -/
theorem MeasChange.arbitrated {m m' : Meas} (h : MeasChange m m') (hm : m.Arbitrated) : m'.Arbitrated := by
  obtain ⟨single, free⟩ := hm
  cases h with
  | records chan cal => exact ⟨single, free⟩
  | resets c => exact ⟨⟨List.nodup_nil, nofun⟩, fun _ => rfl⟩
  | samples ch chan c on =>
    refine Meas.Single.grant ?_ c on
    exact (single.join ch .sample).of_same rfl rfl
  | calibrates cal c on =>
    refine Meas.Single.grant ?_ c on
    exact (single.calExpiry c on).of_same rfl rfl
  | converts b b' _ => exact ⟨single, nofun⟩
  | completes chan c on =>
    refine Meas.Single.grant ?_ c on
    exact single.of_same rfl rfl

theorem measInv_iff (s : State) : MeasInv s ↔ s.meas.Arbitrated := by
  unfold MeasInv Meas.Arbitrated Meas.Single
  tauto

/-- Settles O14: a step is a command from a state that differs in the waiting commands alone, and a command changes the arbiter as
`MeasChange` says. -/
theorem arbiterInvariantKept : Obligations.ArbiterInvariantKept := by
  intro s t h e
  rw [measInv_iff] at h ⊢
  unfold step at e
  split at e
  · cases e
    exact h
  · exact (MeasChange.exec _ e).arbitrated h

end Sys2Proof.Machine

namespace Sys2Proof.Machine

namespace Meas

/-! ### Withdrawals and grants, field by field (R114, R117, R118, R126) -/

theorem without_eq (m : Meas) (w : Waiting) :
    m.without w = m.waiting.filter fun x => decide (¬(x.channel = w.channel ∧ x.kind = w.kind)) := by
  refine congrArg (m.waiting.filter ·) (funext fun x => ?_)
  rw [Bool.eq_iff_iff, Bool.not_eq_true', Bool.eq_false_iff, ne_eq, Waiting.isOf_iff, decide_eq_true_iff]

theorem burstLength_eq (c : MeasureCfg) (w : Waiting) :
    burstLength c w = if w.kind = .sample then (c.chan.get w.channel).burst else 16 := by
  unfold burstLength
  cases w.kind <;> rfl

/-- A grant field by field: its burst, the requests passed by, and the pointer of its class (R114, R117, R118). -/
theorem granted_eq (m : Meas) (c : MeasureCfg) (w : Waiting) (k : ChannelClass) :
    m.granted c w k = { m with
      converter := some
        { channel := w.channel, kind := w.kind, length := burstLength c w, left := burstLength c w,
          sum := 0, rail := false }
      waiting := (m.without w).map (·.passed c.relax)
      ptrUrgent := if k = .urgent then w.channel.next else m.ptrUrgent
      ptrNormal := if k = .normal then w.channel.next else m.ptrNormal
      ptrBackground := if k = .background then w.channel.next else m.ptrBackground } := by
  cases k <;> rfl

/-- A choice that is not withdrawn is granted (R117). -/
theorem grant_granted {m : Meas} {c : MeasureCfg} {on : Bool} {w : Waiting} {k : ChannelClass}
    (free : m.converter = none) (h : (m.aged c).choose = some (w, k)) (hw : withdraws on w = false) :
    m.grant c on = (m.aged c).granted c w k := by
  rw [grant_free c on free]
  exact grantGo_granted _ h hw

/-- A withdrawal leaves counts that have been compared with the limit. -/
theorem withdraw_aged (m : Meas) (c : MeasureCfg) (w : Waiting) :
    ((m.aged c).withdraw c w).aged c = (m.aged c).withdraw c w := by
  refine congrArg (fun l => { (m.aged c).withdraw c w with waiting := l }) ?_
  refine (List.map_congr_left fun y hy => ?_).trans (List.map_id _)
  obtain ⟨x, _, rfl⟩ := List.mem_map.1 (List.mem_of_mem_filter hy)
  exact x.relax_relax c.relax

/-- A choice that is withdrawn is searched past (R126). -/
theorem grant_withdrawn {m : Meas} {c : MeasureCfg} {on : Bool} {w : Waiting} {k : ChannelClass}
    (free : m.converter = none) (h : (m.aged c).choose = some (w, k)) (hw : withdraws on w = true) :
    m.grant c on = ((m.aged c).withdraw c w).grant c on := by
  have shorter := withdraw_shorter c (choose_mem h)
  have length : (m.aged c).waiting.length = m.waiting.length := List.length_map _
  rw [grant_free c on free, grantGo_withdrawn _ h hw,
    grant_free (m := (m.aged c).withdraw c w) c on free, m.withdraw_aged c w]
  exact grantGo_fuel c on _ _ _ (by omega) (Nat.lt_succ_self _)

/-- One waiting request is the choice, for the class it holds. -/
theorem choose_only {m : Meas} {w : Waiting} (h : m.waiting = [w]) : m.choose = some (w, w.cls) := by
  cases chosen : m.choose with
  | none =>
    rw [choose_none, h] at chosen
    cases chosen
  | some p =>
    obtain ⟨v, k⟩ := p
    have offers := (search_some (choose_some chosen).1).2.1
    have same : v = w := List.mem_singleton.1 (h ▸ offers.waits)
    rw [← same, offers.cls]

/-- The only request that waits is granted, and nothing waits behind it (R117). -/
theorem grant_only {m : Meas} {c : MeasureCfg} {on : Bool} {w : Waiting} (free : m.converter = none)
    (only : m.waiting = [w]) (young : w.relax c.relax = w) (stays : withdraws on w = false) :
    m.grant c on = { m with
      converter := some
        { channel := w.channel, kind := w.kind, length := burstLength c w, left := burstLength c w,
          sum := 0, rail := false }
      waiting := []
      ptrUrgent := if w.cls = .urgent then w.channel.next else m.ptrUrgent
      ptrNormal := if w.cls = .normal then w.channel.next else m.ptrNormal
      ptrBackground := if w.cls = .background then w.channel.next else m.ptrBackground } := by
  have aged : (m.aged c).waiting = [w] := by rw [Meas.aged, only, List.map_singleton, young]
  have alone : (m.aged c).without w = [] := by simp [Meas.without, aged, Waiting.isOf]
  rw [grant_granted free (choose_only aged) stays, granted_eq, alone]
  rfl

/-! ### Requests (R116) -/

theorem join_absorbed {m : Meas} {c : Channel} {k : BurstKind} {w : Waiting} (h : w ∈ m.waiting)
    (hc : w.channel = c) (hk : w.kind = k) : m.join c k = m :=
  if_pos (List.any_eq_true.2 ⟨w, h, (w.isOf_iff c k).2 ⟨hc, hk⟩⟩)

theorem join_joins {m : Meas} {c : Channel} {k : BurstKind}
    (h : ∀ w ∈ m.waiting, ¬(w.channel = c ∧ w.kind = k)) :
    m.join c k = { m with waiting := m.waiting ++ [⟨c, k, 0, false⟩] } := by
  refine if_neg fun present => ?_
  obtain ⟨w, hw, is⟩ := List.any_eq_true.1 present
  exact h w hw ((w.isOf_iff c k).1 is)

/-- A request changes the waiting requests alone. -/
theorem join_eq (m : Meas) (c : Channel) (k : BurstKind) :
    m.join c k = { m with
      waiting := if m.waiting.any fun w => w.channel == c && w.kind == k then m.waiting
        else m.waiting ++ [⟨c, k, 0, false⟩] } := by
  show (if (m.waiting.any fun w => w.channel == c && w.kind == k) = true then m else _) = _
  split <;> rfl

/-- Requests of different channels join each where none of its channel and kind waits (R126). -/
theorem join_all (k : BurstKind) (l : List Channel) (nodup : l.Nodup) (m : Meas) :
    l.foldl (fun a c => a.join c k) m = { m with
      waiting := m.waiting ++ (l.filter fun c =>
        !m.waiting.any fun w => w.channel == c && w.kind == k).map fun c => ⟨c, k, 0, false⟩ } := by
  induction l generalizing m with
  | nil => simp
  | cons c l ih =>
    obtain ⟨fresh, nodup⟩ := List.nodup_cons.1 nodup
    rw [List.foldl_cons, ih nodup, join_eq]
    dsimp only
    split
    · rename_i present
      rw [List.filter_cons_of_neg (by simp only [present]; decide)]
    · rename_i absent
      rw [List.filter_cons_of_pos (by simpa using absent), List.map_cons, List.append_assoc]
      have others : ∀ d ∈ l, (!(m.waiting ++ [(⟨c, k, 0, false⟩ : Waiting)]).any fun w => w.channel == d && w.kind == k) =
          !m.waiting.any fun w => w.channel == d && w.kind == k := fun d hd => by
        have other : c ≠ d := fun e => fresh (e ▸ hd)
        simp [other]
      rw [List.filter_congr others]
      rfl

end Meas

/-! ### The two timers (R114, R116, R125, R126) -/

/-- The Measurement Sequencer with a channel's request timer started again, and its request waiting (R116). -/
def Meas.sampled (m : Meas) (c : MeasureCfg) (ch : Channel) : Meas :=
  { m.join ch .sample with
    chan := m.chan.set ch { m.chan.get ch with timer := (c.chan.get ch).period } }

/-- With nothing waiting the request waits alone. -/
theorem Meas.sampled_alone {m : Meas} (c : MeasureCfg) (ch : Channel) (empty : m.waiting = []) :
    m.sampled c ch = { m with
      waiting := [⟨ch, .sample, 0, false⟩]
      chan := m.chan.set ch { m.chan.get ch with timer := (c.chan.get ch).period } } := by
  rw [Meas.sampled, Meas.join_joins (by rw [empty]; exact nofun), empty]
  rfl

/-- A request that no grant has passed by is not promoted (R118). -/
theorem Waiting.relax_fresh (c : Channel) (k : BurstKind) {limit : Nat} (h : 1 ≤ limit) :
    Waiting.relax ⟨c, k, 0, false⟩ limit = ⟨c, k, 0, false⟩ :=
  congrArg (Waiting.mk c k 0) (decide_eq_false (Nat.not_le.2 h))

theorem exec_requestTimerExpiry (ch : Channel) (s : State) :
    exec (.requestTimerExpiry ch) s = .next { s with
      meas := (s.meas.sampled s.cfg.measure ch).grant s.cfg.measure (decide (s.power.pOut ≠ 0)) } := rfl

/-- While a burst is under way the request waits, or is absorbed. -/
theorem exec_requestTimerExpiry_busy (ch : Channel) (s : State) (h : s.meas.converter.isSome = true) :
    exec (.requestTimerExpiry ch) s = .next { s with meas := s.meas.sampled s.cfg.measure ch } := by
  have busy : (s.meas.sampled s.cfg.measure ch).converter.isSome = true := by
    unfold Meas.sampled
    rw [Meas.join_eq]
    exact h
  rw [exec_requestTimerExpiry, Meas.grant_busy _ _ busy]

/-- While a burst is under way the calibration timer's expiry grants nothing. -/
theorem exec_calibrationTimerExpiry_busy (s : State) {m : Meas}
    (h : s.meas.calExpiry s.cfg.measure (decide (s.power.pOut ≠ 0)) = m) (busy : m.converter.isSome = true) :
    exec .calibrationTimerExpiry s = .next { s with meas := { m with calTimer := s.cfg.measure.calPeriod } } := by
  subst h
  refine congrArg (fun x => Host.Outcome.next { s with meas := x }) ?_
  exact Meas.grant_busy _ _ busy

theorem eligible_iff {on : Bool} {c : Channel} : eligible on c = true ↔ c.cls ≠ .urgent ∨ on = false := by
  simp [eligible]

/-! ### The owed set (R125) -/

/-- An owed set in channel order stays so. -/
theorem insertChannel_sorted (c : Channel) (l : List Channel) (h : (l.map Channel.num).Pairwise (· < ·)) :
    ((insertChannel c l).map Channel.num).Pairwise (· < ·) := by
  rw [List.pairwise_map] at h ⊢
  induction l with
  | nil => exact List.pairwise_singleton _ _
  | cons x l ih =>
    obtain ⟨least, sorted⟩ := List.pairwise_cons.1 h
    unfold insertChannel
    split
    · exact h
    · rename_i other
      split
      · rename_i below
        refine List.pairwise_cons.2 ⟨fun y hy => ?_, h⟩
        rcases List.mem_cons.1 hy with rfl | hy
        · exact below
        · exact below.trans (least y hy)
      · rename_i above
        refine List.pairwise_cons.2 ⟨fun y hy => ?_, ih sorted⟩
        rcases mem_insertChannel.1 hy with rfl | hy
        · exact Nat.lt_of_le_of_ne (Nat.le_of_not_lt above) fun e => other (Channel.num_inj e).symm
        · exact least y hy

/-- Channels joining the owed set one by one. -/
def insertChannels (cs l : List Channel) : List Channel := cs.foldl (fun l c => insertChannel c l) l

theorem mem_insertChannels {x : Channel} (cs l : List Channel) : x ∈ insertChannels cs l ↔ x ∈ l ∨ x ∈ cs := by
  induction cs generalizing l with
  | nil => simp [insertChannels]
  | cons c cs ih =>
    rw [insertChannels, List.foldl_cons, ← insertChannels, ih, mem_insertChannel, List.mem_cons]
    tauto

theorem insertChannels_sorted (cs l : List Channel) (h : (l.map Channel.num).Pairwise (· < ·)) :
    ((insertChannels cs l).map Channel.num).Pairwise (· < ·) := by
  induction cs generalizing l with
  | nil => exact h
  | cons c cs ih => exact ih _ (insertChannel_sorted c l h)

/-- The URGENT-class channels from one on (R125). -/
def urgentFrom (p : Channel) : List Channel :=
  Channel.all.filter fun c => c.cls == .urgent && decide (p.num ≤ c.num)

theorem mem_urgentFrom {p c : Channel} : c ∈ urgentFrom p ↔ c.cls = .urgent ∧ p.num ≤ c.num := by
  simp [urgentFrom, c.mem_all]

namespace Meas

/-! ### Calibration expiries by mode (R125, R126) -/

/-- An eligible pointer channel is queued, and the pointer moves on (R125). -/
theorem calWalk_eligible (on : Bool) (n : Nat) {m : Meas} (h : eligible on m.calPointer = true) :
    m.calWalk on (n + 1) = { m with
      waiting := (m.join m.calPointer .calibration).waiting, calPointer := m.calPointer.next } := by
  rw [Meas.calWalk, if_pos h, join_eq]

/-- With power on the walk from an URGENT-class channel ends at FLOW1 (R115, R125). -/
theorem calWalk_urgent {m : Meas} (h : m.calPointer.cls = .urgent) :
    m.calWalk true 9 = { m with
      waiting := (m.join .flow1 .calibration).waiting, calPointer := .flow2
      owed := insertChannels (urgentFrom m.calPointer) m.owed } := by
  obtain ⟨converter, waiting, urgent, normal, background, chan, timer, pointer, owed⟩ := m
  have ends : ∀ owed' n, Meas.calWalk true (n + 1)
      ⟨converter, waiting, urgent, normal, background, chan, timer, .flow1, owed'⟩ =
        ⟨converter, (Meas.join ⟨converter, waiting, urgent, normal, background, chan, timer, pointer, owed⟩
          .flow1 .calibration).waiting, urgent, normal, background, chan, timer, .flow2, owed'⟩ :=
    fun owed' n => by
      rw [calWalk_eligible true n rfl, join_eq, join_eq]
      rfl
  cases pointer
  case coilI => exact ends _ 5
  case invP => exact ends _ 6
  case pyro => exact ends _ 7
  all_goals cases h

/-- With an owed channel eligible, the first such is queued and owed no more (R125). -/
theorem calExpiry_owed {m : Meas} {c : MeasureCfg} {on : Bool} {ch : Channel} {rest : List Channel}
    (mode : c.calMode = .rotate) (owed : m.owed = ch :: rest) (can : eligible on ch = true) (once : ch ∉ rest) :
    m.calExpiry c on = { m with waiting := (m.join ch .calibration).waiting, owed := rest } := by
  have first : m.owed.find? (eligible on) = some ch := by rw [owed, List.find?_cons_of_pos can]
  have others : m.owed.filter (· != ch) = rest := by
    rw [owed, List.filter_cons_of_neg (by simp), List.filter_eq_self]
    exact fun x hx => bne_iff_ne.2 fun e => once (e ▸ hx)
  unfold Meas.calExpiry
  rw [mode, first, ← others]
  dsimp only
  rw [join_eq]

/-- With no owed channel eligible the walk starts from the pointer (R125). -/
theorem calExpiry_walk {m : Meas} {c : MeasureCfg} {on : Bool} (mode : c.calMode = .rotate)
    (owed : ∀ ch ∈ m.owed, ¬eligible on ch = true) : m.calExpiry c on = m.calWalk on 9 := by
  unfold Meas.calExpiry
  rw [mode, List.find?_eq_none.2 owed]

/-- In ALL power queues nothing, and without power all nine channels are queued (R126). -/
theorem calExpiry_all {m : Meas} {c : MeasureCfg} (mode : c.calMode = .all) :
    m.calExpiry c true = m ∧ m.calExpiry c false = { m with
      waiting := m.waiting ++ (Channel.all.filter fun ch =>
        !m.waiting.any fun w => w.channel == ch && w.kind == .calibration).map fun ch =>
          ⟨ch, .calibration, 0, false⟩ } := by
  unfold Meas.calExpiry
  rw [mode]
  exact ⟨rfl, join_all .calibration Channel.all (by decide) m⟩

end Meas

/-- Settles O52: a request timer by `join` and the grant of the one that waits, a calibration expiry by its mode, the choice by the
search of its class, and the grant field by field. -/
theorem timersQueueRequests : Obligations.TimersQueueRequests := by
  refine ⟨fun c s => ?_, fun s b hb => ?_, fun m c on => ?_, fun m w k chosen => ?_,
    fun m c on w k free => ?_⟩
  · intro m n
    refine ⟨fun b hb absent => ?_, fun b w hb hw hc hk => ?_, fun free empty limit => ?_⟩
    · rw [exec_requestTimerExpiry_busy c s (by rw [hb]; rfl), Meas.sampled, Meas.join_joins absent]
    · rw [exec_requestTimerExpiry_busy c s (by rw [hb]; rfl), Meas.sampled, Meas.join_absorbed hw hc hk]
    · have alone := Meas.sampled_alone s.cfg.measure c empty
      have granted := Meas.grant_only (on := decide (s.power.pOut ≠ 0))
        (show (s.meas.sampled s.cfg.measure c).converter = _ by rw [alone]; exact free)
        (by rw [alone]) (Waiting.relax_fresh c .sample limit) rfl
      rw [exec_requestTimerExpiry, granted, alone, ← empty]
      rfl
  · intro timed can add
    have can_iff : ∀ c, eligible (decide (s.power.pOut ≠ 0)) c = true ↔ can c := fun c => by
      simp [eligible_iff, can]
    have busy : s.meas.converter.isSome = true := by rw [hb]; rfl
    have waits : ∀ c, (s.meas.join c .calibration).waiting = add c := fun c => by rw [Meas.join_eq]
    refine ⟨fun mode on => ?_, fun mode owed here => ?_, fun mode owed here => ?_, fun mode off => ?_,
      fun c rest mode owed here once => ?_⟩
    · have expiry := (Meas.calExpiry_all (m := s.meas) mode).1
      exact exec_calibrationTimerExpiry_busy s ((congrArg _ (decide_eq_true on)).trans expiry) busy
    · have expiry := (Meas.calExpiry_walk mode fun c hc => mt (can_iff c).1 (owed c hc)).trans
        (Meas.calWalk_eligible _ 8 ((can_iff _).2 here))
      rw [waits] at expiry
      exact exec_calibrationTimerExpiry_busy s expiry busy
    · obtain ⟨urgent, on⟩ : s.meas.calPointer.cls = .urgent ∧ s.power.pOut ≠ 0 := by
        simpa only [can, not_or, not_not] using here
      have expiry := Meas.calExpiry_walk mode fun c hc => mt (can_iff c).1 (owed c hc)
      have walk : s.meas.calWalk (decide (s.power.pOut ≠ 0)) 9 = _ :=
        decide_eq_true on ▸ Meas.calWalk_urgent urgent
      rw [waits] at walk
      refine ⟨_, exec_calibrationTimerExpiry_busy s (expiry.trans walk) busy, fun c => ?_,
        insertChannels_sorted _ _⟩
      rw [mem_insertChannels, mem_urgentFrom]
    · have expiry := (Meas.calExpiry_all (m := s.meas) mode).2
      exact exec_calibrationTimerExpiry_busy s ((congrArg _ (decide_eq_false (not_not.2 off))).trans expiry) busy
    · have expiry := Meas.calExpiry_owed mode owed ((can_iff c).2 here) once
      rw [waits] at expiry
      exact exec_calibrationTimerExpiry_busy s expiry busy
  · exact ⟨fun h => Option.isSome_iff_ne_none.2 fun none => h (Meas.choose_none.1 none),
      fun h => h.elim (Meas.grant_busy c on) (Meas.grant_none c on)⟩
  · intro turn
    obtain ⟨found, urgent, normal⟩ := Meas.choose_some chosen
    obtain ⟨_, offers, first⟩ := Meas.search_some found
    exact ⟨offers.waits, offers.cls, urgent, normal, first, offers.sampleFirst⟩
  · intro aged chosen
    have others := (m.aged c).without_eq w
    constructor
    · intro hk hc hon
      have withdrawn := Meas.grant_withdrawn free chosen (Meas.withdraws_iff.2 ⟨hk, hc, hon⟩)
      refine ⟨((m.aged c).withdraw c w).owed, ?_, fun mode => ?_, fun mode x => ?_⟩
      · exact withdrawn.trans
          (congrArg (fun l => Meas.grant { (m.aged c).withdraw c w with waiting := l } c on) others)
      · simp [Meas.withdraw, mode, Meas.aged]
      · rw [Meas.mem_withdraw_owed]
        simp [mode, Meas.aged]
    · intro h n
      have stays : Meas.withdraws on w = false := by
        rw [Bool.eq_false_iff, ne_eq, Meas.withdraws_iff]
        rintro ⟨hk, hc, hon⟩
        rcases h with h | h | h
        · rw [h] at hk; cases hk
        · exact h hc
        · rw [h] at hon; cases hon
      rw [Meas.grant_granted free chosen stays, Meas.granted_eq, others, Meas.burstLength_eq]
      rfl

end Sys2Proof.Machine

namespace Sys2Proof.Machine

/-- Settles O9: a step is a chain of acts, and every act keeps latch, record and response together. -/
theorem latchStandsWithTripStates : Obligations.LatchStandsWithTripStates :=
  fun s t hq hl e => (step_acts s t hq e).keeps LatchInv.act hl

end Sys2Proof.Machine

namespace Sys2Proof

/-- The sources stand in the order of their codes (R198). -/
theorem Source.all_sorted : Source.all.Pairwise fun a b => a.code < b.code := by decide

theorem Source.mem_all (src : Source) : src ∈ Source.all := by cases src <;> decide

end Sys2Proof

namespace Sys2Proof.Machine

/-! ### The TRIP group (R131, R150, R198) -/

/-- The class that a legal code stands for (R198). -/
def codedClass (x : Int) : SourceClass := if x = 1 then .warn else if x = 2 then .limit else .trip

/-- The response that a legal code stands for (R198). -/
def codedResponse (x : Int) : Response := if x = 1 then .runout else if x = 2 then .stop else .stopFlood

/-- A class code is read when it is 1 to 3 and its class is one that the source admits (R131). -/
theorem classOfCode_eq (allowed : List SourceClass) (x : Int) :
    classOfCode allowed x =
      if (1 ≤ x ∧ x ≤ 3) ∧ codedClass x ∈ allowed then some (codedClass x) else none := by
  have coded : (if x = 1 then some SourceClass.warn else if x = 2 then some .limit
      else if x = 3 then some .trip else none) =
        if 1 ≤ x ∧ x ≤ 3 then some (codedClass x) else none := by
    grind [codedClass]
  unfold classOfCode
  dsimp only
  rw [coded]
  by_cases hx : 1 ≤ x ∧ x ≤ 3 <;> simp [hx, Option.filter_some]

/-- COIL_OVERCURRENT admits LIMIT and TRIP, PYRO_HIGH all three, the others WARN and TRIP (R131). -/
theorem classOfCode_admitted (x : Int) :
    (classOfCode [.limit, .trip] x = if x = 2 ∨ x = 3 then some (codedClass x) else none) ∧
      (classOfCode [.warn, .limit, .trip] x =
        if 1 ≤ x ∧ x ≤ 3 then some (codedClass x) else none) ∧
      classOfCode [.warn, .trip] x = if x = 1 ∨ x = 3 then some (codedClass x) else none := by
  simp only [classOfCode_eq]
  refine ⟨if_congr ?_ rfl rfl, if_congr ?_ rfl rfl, if_congr ?_ rfl rfl⟩ <;> grind [codedClass]

theorem responseOfCode_eq (x : Int) :
    responseOfCode x = if 1 ≤ x ∧ x ≤ 3 then some (codedResponse x) else none := by
  grind [responseOfCode, codedResponse]

/-- Codes are read together when each of them is legal. -/
theorem mapM_of_legal {α β : Type} {f : α → Option β} {legal : α → Prop} [DecidablePred legal] {read : α → β}
    (hf : ∀ x, f x = if legal x then some (read x) else none) (l : List α) :
    l.mapM f = if ∀ x ∈ l, legal x then some (l.map read) else none := by
  induction l with
  | nil => rfl
  | cons x l ih =>
    rw [List.mapM_cons, ih, hf]
    by_cases hx : legal x <;> by_cases hl : ∀ y ∈ l, legal y
    · rw [if_pos hx, if_pos hl, if_pos (List.forall_mem_cons.2 ⟨hx, hl⟩)]
      rfl
    · rw [if_pos hx, if_neg hl, if_neg fun h => hl (List.forall_mem_cons.1 h).2]
      rfl
    all_goals
      rw [if_neg hx, if_neg fun h => hx (List.forall_mem_cons.1 h).1]
      rfl

/-- The items of a TRIP group are legal (R131, R150). -/
def TripLegal (xs : List Int) : Prop :=
  let x : Nat → Int := fun i => xs.getD i 0
  (x 0 = 2 ∨ x 0 = 3) ∧ (1 ≤ x 1 ∧ x 1 ≤ 3) ∧
    (∀ i ∈ [2, 3, 4, 5, 6], x i = 1 ∨ x i = 3) ∧ (∀ i, 7 ≤ i → i ≤ 18 → 1 ≤ x i ∧ x i ≤ 3) ∧
    10 ≤ x 19 ∧ x 19 ≤ 100 ∧ 10 ≤ x 20 ∧ x 20 ≤ 100 ∧ 10 ≤ x 21 ∧ x 21 ≤ 6000 ∧
    100 ≤ x 22 ∧ x 22 ≤ 1500 ∧ 0 ≤ x 23 ∧ x 23 ≤ 5000 ∧ 5 ≤ x 24 ∧ x 24 ≤ 120

/-- The TRIP group that legal items hold (R150, R198). -/
def tripRead (xs : List Int) : TripCfg :=
  let x : Nat → Int := fun i => xs.getD i 0
  let cls : Nat → SourceClass := fun i => codedClass (x i)
  let resp : Nat → Response := fun i => codedResponse (x i)
  { classCoilOver := cls 0, classPyro := cls 1, classFlow := ⟨cls 2, cls 3, cls 4⟩,
    classQTemp := cls 5, classSensor := cls 6, respCoilOver := resp 7, respPyro := resp 8,
    respInvFault := resp 9, respInvLost := resp 10, respCoilWater := resp 11,
    respFlow := ⟨resp 12, resp 13, resp 14⟩, respQTemp := resp 15, respSpindle := resp 16,
    respSensor := resp 17, respForced := resp 18, capCoilOver := (x 19).toNat,
    capPyro := (x 20).toNat, iMax := (x 21).toNat, tMax := (x 22).toNat,
    waterMin := (x 23).toNat, qTempLimit := (x 24).toNat }

/-- The items 7 to 18 are the responses (R150). -/
theorem responses_legal (xs : List Int) (hl : xs.length = 25) :
    (∀ i, 7 ≤ i → i ≤ 18 → 1 ≤ xs.getD i 0 ∧ xs.getD i 0 ≤ 3) ↔
      ∀ r ∈ (xs.drop 7).take 12, 1 ≤ r ∧ r ≤ 3 := by
  constructor
  · intro h r hr
    obtain ⟨i, hi, rfl⟩ := List.getElem_of_mem hr
    rw [List.length_take, List.length_drop] at hi
    rw [List.getElem_take, List.getElem_drop, ← List.getD_eq_getElem xs 0]
    exact h (7 + i) (by omega) (by omega)
  · intro h i h7 h18
    refine h _ (List.mem_iff_getElem.2 ⟨i - 7, ?_, ?_⟩)
    · rw [List.length_take, List.length_drop]
      omega
    · rw [List.getElem_take, List.getElem_drop, List.getD_eq_getElem xs 0 (by omega)]
      congr 1
      omega

/-- Legal items are read, each from its place (R131, R150). -/
theorem tripCfgOf_eq_some (xs : List Int) (hl : xs.length = 25) (h : TripLegal xs) :
    tripCfgOf xs = some (tripRead xs) := by
  obtain ⟨coil, pyro, warns, resp, ranges⟩ := h
  rw [responses_legal xs hl] at resp
  match xs, hl with
  | [c1, c2, c3, c4, c5, c6, c7, r1, r2, r3, r4, r5, r6, r7, r8, r9, r10, r11, r12, cap1, cap2, im, tm,
      wm, qt], _ =>
    have warn : ∀ x ∈ [c3, c4, c5, c6, c7], classOfCode [.warn, .trip] x = some (codedClass x) :=
      fun x hx => (classOfCode_admitted x).2.2.trans
        (if_pos ((by simpa using warns : ∀ x ∈ [c3, c4, c5, c6, c7], x = 1 ∨ x = 3) x hx))
    simp only [List.forall_mem_cons] at warn
    obtain ⟨flow1, flow2, flow3, temp, sensor, _⟩ := warn
    have responses : [r1, r2, r3, r4, r5, r6, r7, r8, r9, r10, r11, r12].mapM responseOfCode = some _ :=
      (mapM_of_legal responseOfCode_eq _).trans (if_pos resp)
    unfold tripCfgOf
    simp only [(classOfCode_admitted c1).1.trans (if_pos coil),
      (classOfCode_admitted c2).2.1.trans (if_pos pyro), flow1, flow2, flow3, temp, sensor, responses,
      List.map]
    refine if_pos ?_
    simp only [Bool.and_eq_true, inRange_iff, and_assoc]
    exact ranges

/-- What is read was legal (R131, R150). -/
theorem tripLegal_of_read (xs : List Int) (c : TripCfg) (h : tripCfgOf xs = some c) :
    xs.length = 25 ∧ TripLegal xs := by
  unfold tripCfgOf at h
  split at h
  case h_2 => cases h
  rename_i c1 c2 c3 c4 c5 c6 c7 r1 r2 r3 r4 r5 r6 r7 r8 r9 r10 r11 r12 cap1 cap2 im tm wm qt
  split at h
  case h_2 => cases h
  rename_i k1 k2 k3 k4 k5 k6 k7
  split at h
  case h_2 => cases h
  rename_i resp
  obtain ⟨ranges, _⟩ := Option.ite_none_right_eq_some.1 h
  simp only [Bool.and_eq_true, inRange_iff, and_assoc] at ranges
  rw [mapM_of_legal responseOfCode_eq] at resp
  have legal := (Option.ite_none_right_eq_some.1 resp).1
  have warn : ∀ {x k}, classOfCode [.warn, .trip] x = some k → x = 1 ∨ x = 3 := fun {x _} h =>
    (Option.ite_none_right_eq_some.1 ((classOfCode_admitted x).2.2.symm.trans h)).1
  refine ⟨rfl, (Option.ite_none_right_eq_some.1 ((classOfCode_admitted c1).1.symm.trans k1)).1,
    (Option.ite_none_right_eq_some.1 ((classOfCode_admitted c2).2.1.symm.trans k2)).1, ?_,
    (responses_legal _ rfl).2 legal, ranges⟩
  simp only [List.forall_mem_cons]
  exact ⟨warn k3, warn k4, warn k5, warn k6, warn k7, nofun⟩

/-! ### Present sources taken together (R137, R138, R147, R151) -/

theorem mem_insertSource {src x : Source} {l : List Source} : x ∈ insertSource src l ↔ x = src ∨ x ∈ l := by
  induction l with
  | nil => simp [insertSource]
  | cons y l ih =>
    unfold insertSource
    split_ifs with h
    · simp [h]
    · simp
    · simp only [List.mem_cons, ih]
      tauto

/-- The channel that the raise of a source names first: the lowest faulted one of a SENSOR_FAULT (R138, R151). -/
def State.namedChannel (s : State) (src : Source) : Option Channel :=
  if src = .sensorFault then Channel.all.find? fun ch => (s.meas.chan.get ch).sensorFault else none

theorem State.raisesOf_absent {s : State} {src : Source} (h : s.present src = false) : s.raisesOf src = [] := by
  unfold State.raisesOf
  rw [h]
  rfl

theorem State.raisesOf_source {s : State} {src : Source} {p : Source × Option Channel}
    (h : p ∈ s.raisesOf src) : p.1 = src := by
  unfold State.raisesOf at h
  split_ifs at h
  · obtain ⟨_, _, rfl⟩ := List.mem_map.1 h
    rfl
  · rw [List.mem_singleton.1 h]
  · cases h

/-- A present source is raised, and its first raise names the channel (R151). -/
theorem State.raisesOf_present {s : State} {src : Source} (h : s.present src = true) :
    ∃ more, s.raisesOf src = (src, s.namedChannel src) :: more := by
  unfold State.raisesOf State.namedChannel
  rw [h, if_pos rfl]
  by_cases hs : src = .sensorFault
  · subst hs
    obtain ⟨ch, hch, faulted⟩ := List.any_eq_true.1 <|
      show (Channel.all.any fun ch => (s.meas.chan.get ch).sensorFault) = true from h
    have nonempty : (Channel.all.filter fun ch => (s.meas.chan.get ch).sensorFault) ≠ [] :=
      List.ne_nil_of_mem (List.mem_filter.2 ⟨hch, faulted⟩)
    obtain ⟨first, more, e⟩ := List.exists_cons_of_ne_nil nonempty
    rw [if_pos rfl, if_pos rfl, ← List.head?_filter, e]
    exact ⟨_, rfl⟩
  · rw [if_neg hs, if_neg hs]
    exact ⟨[], rfl⟩

/-- From `s` the source `src` has tripped at rest, and the sources `later` behind it (R138, R145, R147). -/
structure TrippedWith (s t : State) (src : Source) (ch : Option Channel) (later : List Source) : Prop where
  tripped : Tripped s t src ch
  state : t.seq.state = .tripped
  cfg : t.cfg = s.cfg
  record : ∃ r, t.trip.record = some r ∧ ∀ x, x ∈ r.later ↔ x ∈ later

namespace TrippedWith

/-- The latching trip at rest (R137, R145). -/
theorem of_latchingTrip (s : State) (src : Source) (ch : Option Channel) (hs : s.seq.state.isRest = true) :
    TrippedWith s (s.latchingTrip src ch) src ch [] := by
  have record : (s.tripResting src ch).trip.record = some (s.newRecord src ch) := by
    unfold State.tripResting
    cases s.chosenResponse src <;> rfl
  refine ⟨.of_latchingTrip s src ch, ?_, s.latchingTrip_cfg src ch, ?_⟩ <;>
    rw [s.latchingTrip_resting src ch hs]
  · rw [State.enterTripped_seq]
  · rw [State.enterTripped_trip]
    exact ⟨_, record, fun _ => Iff.rfl⟩

/-- One more source (R138, R147). -/
theorem raise {s t : State} {src : Source} {ch : Option Channel} {later : List Source}
    (h : TrippedWith s t src ch later) (x : Source) (ch' : Option Channel) (hx : s.classOf x = .trip) :
    TrippedWith s (t.raise x ch') src ch (later ++ [x]) := by
  obtain ⟨r, hr, mem⟩ := h.record
  have cls : t.classOf x = .trip := by
    unfold State.classOf
    rw [h.cfg]
    exact hx
  have also : (t.raise x ch').seq = t.seq ∧ (t.raise x ch').trip.record = some (r.also x) := by
    rw [t.raise_furthers x ch' cls h.tripped.latched.1, (t.furtherTrip_eq x hr).2 h.state]
    split_ifs <;> exact ⟨rfl, rfl⟩
  refine ⟨h.tripped.raise x ch', also.1 ▸ h.state, (t.raise_cfg x ch').trans h.cfg, r.also x, also.2, fun y => ?_⟩
  rw [TripRecord.also, mem_insertSource, mem, List.mem_append, List.mem_singleton, or_comm]

/-- More sources, one behind the other (R138, R147). -/
theorem raises {s t : State} {src : Source} {ch : Option Channel} {later : List Source}
    (h : TrippedWith s t src ch later) (l : List (Source × Option Channel))
    (hl : ∀ p ∈ l, s.classOf p.1 = .trip) :
    TrippedWith s (l.foldl (fun t p => t.raise p.1 p.2) t) src ch (later ++ l.map Prod.fst) := by
  induction l generalizing t later with
  | nil => simpa using h
  | cons p l ih =>
    obtain ⟨hp, hl⟩ := List.forall_mem_cons.1 hl
    simpa using ih (h.raise p.1 p.2 hp) hl

end TrippedWith

/-! ### An accepted TRIP group (R151) -/

/-- A present source that the group `c` puts newly in the TRIP class (R151). -/
def State.newlyTrips (s : State) (c : TripCfg) (src : Source) : Bool :=
  s.present src && (c.classOf src == .trip && s.cfg.trip.classOf src != .trip)

theorem State.newlyTrips_iff {s : State} {c : TripCfg} {src : Source} :
    s.newlyTrips c src = true ↔
      s.present src = true ∧ c.classOf src = .trip ∧ s.cfg.trip.classOf src ≠ .trip := by
  simp [State.newlyTrips]

/-- The part with its TRIP group replaced (R193). -/
def State.regrouped (s : State) (c : TripCfg) : State := s.onCfg ({ · with trip := c })

/-- The raises of an accepted group are those of the sources newly in the TRIP class, by their codes (R151). -/
theorem State.reclass_eq (s : State) (c : TripCfg) :
    s.reclass c = ((Source.all.filter (s.newlyTrips c)).flatMap s.raisesOf).foldl
      (fun t p => t.raise p.1 p.2) (s.regrouped c) := by
  have raises : ∀ l : List Source,
      (l.filter fun src => c.classOf src == .trip && s.cfg.trip.classOf src != .trip).flatMap s.raisesOf =
        (l.filter (s.newlyTrips c)).flatMap s.raisesOf := by
    intro l
    induction l with
    | nil => rfl
    | cons src l ih =>
      cases h : s.present src
      · have absent : s.newlyTrips c src = false := by rw [State.newlyTrips, h, Bool.false_and]
        rw [List.filter_cons, List.filter_cons_of_neg (by simp [absent]), ← ih]
        split
        · rw [List.flatMap_cons, State.raisesOf_absent h, List.nil_append]
        · rfl
      · have same : s.newlyTrips c src = (c.classOf src == .trip && s.cfg.trip.classOf src != .trip) := by
          rw [State.newlyTrips, h, Bool.true_and]
        rw [List.filter_cons, List.filter_cons, same]
        split
        · rw [List.flatMap_cons, List.flatMap_cons, ih]
        · exact ih
  unfold State.reclass State.raisePresent
  exact congrArg (List.foldl _ _) (raises Source.all)

/-- With no such source nothing is raised (R151). -/
theorem State.reclass_quiet (s : State) (c : TripCfg) (h : ∀ src, s.newlyTrips c src = false) :
    s.reclass c = s.regrouped c := by
  rw [s.reclass_eq, List.filter_eq_nil_iff.2 fun src _ => by rw [h]; decide]
  rfl

/-- With some, the one of the lowest code trips and the others are later causes (R137, R138, R151). -/
theorem State.reclass_trips (s : State) (c : TripCfg) (hrest : s.seq.state.isRest = true)
    (hl : s.trip.latch = false) {x : Source} (hx : s.newlyTrips c x = true) :
    ∃ src later, s.newlyTrips c src = true ∧
      TrippedWith (s.regrouped c) (s.reclass c) src (s.namedChannel src) later ∧
      (∀ y, s.newlyTrips c y = true → src.code ≤ y.code ∧ (y = src ∨ y ∈ later)) ∧
      ∀ y ∈ later, s.newlyTrips c y = true := by
  rw [s.reclass_eq]
  have sorted := Source.all_sorted.filter (s.newlyTrips c)
  have mem : ∀ y, y ∈ Source.all.filter (s.newlyTrips c) ↔ s.newlyTrips c y = true := fun y =>
    List.mem_filter.trans (and_iff_right y.mem_all)
  obtain ⟨src, rest, first⟩ := List.exists_cons_of_ne_nil (List.ne_nil_of_mem ((mem x).2 hx))
  rw [first] at sorted mem ⊢
  have newly : ∀ y ∈ src :: rest, s.present y = true ∧ c.classOf y = .trip := fun y hy => by
    obtain ⟨here, cls, _⟩ := State.newlyTrips_iff.1 ((mem y).1 hy)
    exact ⟨here, cls⟩
  obtain ⟨here, cls⟩ := newly src List.mem_cons_self
  obtain ⟨more, raises⟩ := State.raisesOf_present here
  have among : ∀ p ∈ more ++ rest.flatMap s.raisesOf, p.1 ∈ src :: rest := by
    intro p hp
    obtain ⟨y, hy, hp⟩ := List.mem_flatMap.1 <| show p ∈ (src :: rest).flatMap s.raisesOf by
      rw [List.flatMap_cons, raises]
      exact List.mem_cons_of_mem _ hp
    exact State.raisesOf_source hp ▸ hy
  rw [List.flatMap_cons, raises, List.cons_append, List.foldl_cons,
    (s.regrouped c).raise_latching src _ cls hl]
  refine ⟨src, _, (mem src).1 List.mem_cons_self,
    (TrippedWith.of_latchingTrip (s.regrouped c) src _ hrest).raises _ fun p hp => (newly _ (among p hp)).2, ?_, ?_⟩
  · intro y hy
    rcases List.mem_cons.1 ((mem y).2 hy) with rfl | behind
    · exact ⟨le_rfl, .inl rfl⟩
    · obtain ⟨_, raised⟩ := State.raisesOf_present (newly y (List.mem_cons_of_mem _ behind)).1
      have joined : (y, s.namedChannel y) ∈ rest.flatMap s.raisesOf :=
        List.mem_flatMap.2 ⟨y, behind, by rw [raised]; exact List.mem_cons_self⟩
      exact ⟨(List.rel_of_pairwise_cons sorted behind).le,
        .inr (List.mem_map.2 ⟨_, List.mem_append_right _ joined, rfl⟩)⟩
  · intro y hy
    rw [List.nil_append] at hy
    obtain ⟨p, hp, rfl⟩ := List.mem_map.1 hy
    exact (mem _).1 (among p hp)

/-- Outside IDLE and UNREFERENCED a group of the right length is refused (R193). -/
theorem State.serveConfig_away {α : Type} (s : State) (tag : Byte) {want : Nat} {items : List Int} (read : Option α)
    (write : α → State → State) (hl : items.length = want) (hs : s.seq.state.isRest = false) :
    s.serveConfig tag want items read write = s.replied 0x82#8 tag .state [] := by
  subst hl
  unfold State.serveConfig State.configAnswer
  cases read <;> simp [hs] <;> rfl

/-- There every CONFIGURE request is refused, whatever its group (R193). -/
theorem State.serve_configure_away (s : State) (tag : Byte) (r : Request) (hk : r.kindByte = 0x02#8)
    (hw : r.wf = true) (hs : s.seq.state.isRest = false) :
    s.serve tag r = s.replied 0x82#8 tag .state [] := by
  have length : ∀ {n : Nat} {xs : List Int}, itemsWf n xs = true → xs.length = n := fun h =>
    eq_of_beq (Bool.and_eq_true_iff.1 h).1
  cases r
  case configureMachine xs | configureQuench xs | configureMeasure xs | configureTrip xs | configureFlow xs |
      configurePrestart xs =>
    simp only [State.serve, State.serveMachine, State.serveQuenchGroup, State.serveMeasure,
      State.serveTripGroup, State.serveFlowGroup, State.servePrestartGroup]
    exact s.serveConfig_away tag _ _ (length hw) hs
  all_goals cases hk

/-- A TRIP group in IDLE or UNREFERENCED: accepted when it is read, INVALID otherwise (R193). -/
theorem exec_configureTrip_rest {s : State} {tag : Byte} (xs : List Int) (taken : Taken s tag)
    (hrest : s.seq.state.isRest = true) (hl : xs.length = 25) :
    exec (.configureTrip tag xs) s = .next (match tripCfgOf xs with
      | some c => (s.replied 0x82#8 tag .ok []).reclass c
      | none => s.replied 0x82#8 tag .invalid []) := by
  rw [exec_configureTrip_taken xs taken]
  unfold State.serveTripGroup
  rw [← hl, State.serveConfig_read _ _ _ _ _ hrest]
  cases tripCfgOf xs <;> rfl

/-- Settles O24: the reader asks for the classes and ranges item by item; the raises of a group that is accepted begin with the source
of the lowest code. -/
theorem configureTripOrRefused : Obligations.ConfigureTripOrRefused := by
  refine ⟨?_, ?_, ?_⟩
  · intro tag s xs c taken rest read newly
    have newly_iff : ∀ src, (s.replied 0x82#8 tag .ok []).newlyTrips c src = true ↔ newly src := fun _ =>
      State.newlyTrips_iff
    rw [exec_configureTrip_rest xs taken rest (tripLegal_of_read xs c read).1, read]
    refine ⟨fun absent => ?_, fun clear ⟨x, hx⟩ => ?_⟩
    · exact congrArg Host.Outcome.next <| State.reclass_quiet _ c fun src =>
        Bool.eq_false_iff.2 fun h => absent src ((newly_iff src).1 h)
    · obtain ⟨src, later, first, trips, lowest, others⟩ :=
        (s.replied 0x82#8 tag .ok []).reclass_trips c rest clear ((newly_iff x).2 hx)
      obtain ⟨r, record, mem⟩ := trips.record
      obtain ⟨_, ⟨r', record', rfl, channel, _⟩, _⟩ := id trips.tripped.latched
      obtain rfl : r = r' := Option.some.inj (record.symm.trans record')
      refine ⟨_, r, rfl, record, channel ▸ trips.tripped.latched, trips.state, (newly_iff _).1 first,
        fun y hy => ?_, fun y hy => (newly_iff y).1 (others y ((mem y).1 hy)), channel⟩
      rw [mem]
      exact lowest y ((newly_iff y).2 hy)
  · intro tag s xs taken rest hl x good cls resp
    refine ⟨fun legal => tripCfgOf_eq_some xs hl legal, fun illegal => ?_⟩
    have unread : tripCfgOf xs = none :=
      Option.eq_none_iff_forall_ne_some.2 fun c read => illegal (tripLegal_of_read xs c read).2
    rw [exec_configureTrip_rest xs taken rest hl, unread]
  · intro c tag r s hr hk hw taken away
    rw [exec_request c tag r s hr, request_taken r _ taken, s.serve_configure_away tag r hk hw away]

end Sys2Proof.Machine

namespace Sys2Proof.Machine

/-! ### A record number that is free (R153) -/

/-- Numbers count up to 65,535, and on from 1 (R153). -/
theorem nextRecordNumber_iterate (n : Nat) {i : Nat} (hi : i ≤ 65535) :
    nextRecordNumber^[i] n = if n ≤ 65535 ∧ 65535 < n + i then n + i - 65535 else n + i := by
  induction i with
  | zero => simp
  | succ i ih =>
    rw [Function.iterate_succ_apply', ih (by omega)]
    unfold nextRecordNumber
    split_ifs <;> omega

/-- A search that ends on a taken number has passed over taken numbers alone. -/
theorem freeNumberGo_taken {taken : List Nat} {k n : Nat} (h : freeNumberGo taken k n ∈ taken) :
    ∀ i ≤ k, nextRecordNumber^[i] n ∈ taken := by
  induction k generalizing n with
  | zero =>
    intro i hi
    obtain rfl := Nat.le_zero.1 hi
    exact h
  | succ k ih =>
    unfold freeNumberGo at h
    split at h
    · rename_i here
      intro i hi
      cases i with
      | zero => exact List.contains_iff_mem.1 here
      | succ i => exact ih h i (Nat.le_of_succ_le_succ hi)
    · rename_i free
      exact absurd (List.contains_iff_mem.2 h) free

/-- The first `k` numbers that a search from `n` can look at (R153). -/
def numbersFrom (n k : Nat) : List Nat := (List.range k).map (nextRecordNumber^[·] n)

theorem numbersFrom_nodup (n : Nat) {k : Nat} (hk : k ≤ 65535) : (numbersFrom n k).Nodup := by
  refine List.Nodup.map_on (fun i hi j hj e => ?_) List.nodup_range
  rw [List.mem_range] at hi hj
  rw [nextRecordNumber_iterate n (by omega), nextRecordNumber_iterate n (by omega)] at e
  split_ifs at e <;> omega

theorem numbersFrom_subset {taken : List Nat} {k n : Nat} (h : freeNumberGo taken k n ∈ taken) :
    numbersFrom n (k + 1) ⊆ taken := fun x hx => by
  obtain ⟨i, hi, rfl⟩ := List.mem_map.1 hx
  exact freeNumberGo_taken h i (Nat.lt_succ_iff.1 (List.mem_range.1 hi))

/-- A search as long as the list of taken numbers finds a free one: it can look at one number more than are taken, all of
them different. -/
theorem freeNumberGo_free {taken : List Nat} (n : Nat) (hl : taken.length < 65535) :
    freeNumberGo taken taken.length n ∉ taken := by
  intro h
  have fits := ((numbersFrom_nodup n hl).subperm (numbersFrom_subset h)).length_le
  simp [numbersFrom] at fits

namespace Zones

theorem numbers_length (z : Zones) : z.numbers.length = z.count := by
  unfold numbers count
  cases z.openRec <;> simp

/-- The number the next record takes is carried by none in the list (R153). -/
theorem numberToTake_free {z : Zones} (h : z.count < 8) : z.numberToTake ∉ z.numbers :=
  freeNumberGo_free z.nextNumber (by rw [z.numbers_length]; omega)

theorem openRecord_numbers (z : Zones) (part : Tag8) (page : Option Nat) (source : Origin)
    (windows : List Window) :
    (z.openRecord part page source windows).numbers = z.closed.map (·.number) ++ [z.numberToTake] := rfl

/-- Opening a record keeps the numbers distinct (R153). -/
theorem openRecord_nodup {z : Zones} (h : z.numbers.Nodup) (room : z.count < 8) (part : Tag8)
    (page : Option Nat) (source : Origin) (windows : List Window) :
    (z.openRecord part page source windows).numbers.Nodup := by
  have closed : (z.closed.map (·.number)).Sublist z.numbers := List.sublist_append_left ..
  rw [openRecord_numbers, List.nodup_append_comm, List.singleton_append, List.nodup_cons]
  exact ⟨fun here => numberToTake_free room (closed.subset here), h.sublist closed⟩

/-- A close moves the open record's number to the closed ones, in its place (R160). -/
theorem close_numbers (z : Zones) (c : EndCause) (time : Nat) (trip : Option TripRecord) :
    (z.close c time trip).numbers = z.numbers := by
  unfold close numbers
  cases h : z.openRec <;> simp [h, OpenRecord.close]

theorem onOpen_numbers (z : Zones) {f : OpenRecord → OpenRecord} (h : ∀ r, (f r).number = r.number) :
    (z.onOpen f).numbers = z.numbers := by
  unfold onOpen numbers
  cases z.openRec <;> simp [h]

theorem release_numbers (z : Zones) (n : Nat) : (z.release n).numbers.Sublist z.numbers :=
  (List.filter_sublist.map _).append_right _

end Zones

/-! ### What a record still open has counted (R155 to R159) -/

/-- The record is the same one with the same zones, of which none has lost energy or heated length (R157). -/
structure OpenRecord.Grown (r r' : OpenRecord) : Prop where
  number : r'.number = r.number
  length : r'.zones.length = r.zones.length
  counts : ∀ (i : Nat) (e : ZoneEntry), r.zones[i]? = some e → ∃ e', r'.zones[i]? = some e' ∧
    e.acc.energy ≤ e'.acc.energy ∧ e.acc.length ≤ e'.acc.length

namespace OpenRecord

theorem Grown.of_zones {r r' : OpenRecord} (hn : r'.number = r.number) (hz : r'.zones = r.zones) :
    r.Grown r' :=
  ⟨hn, by rw [hz], fun _ e h => ⟨e, by rw [hz, h], le_rfl, le_rfl⟩⟩

theorem Grown.refl (r : OpenRecord) : r.Grown r := .of_zones rfl rfl

theorem Grown.trans {r r' r'' : OpenRecord} (h : r.Grown r') (h' : r'.Grown r'') : r.Grown r'' := by
  refine ⟨h'.number.trans h.number, h'.length.trans h.length, fun i e he => ?_⟩
  obtain ⟨e', he', energy, length⟩ := h.counts i e he
  obtain ⟨e'', he'', energy', length'⟩ := h'.counts i e' he'
  exact ⟨e'', he'', energy.trans energy', length.trans length'⟩

/-- A change of one zone that lowers neither (R156 to R158). -/
theorem onZone_grown (r : OpenRecord) (i : Nat) {f : ZoneAcc → ZoneAcc}
    (h : ∀ a, a.energy ≤ (f a).energy ∧ a.length ≤ (f a).length) : r.Grown (r.onZone i f) := by
  refine ⟨rfl, List.length_modify .., fun j e he => ?_⟩
  show ∃ e', (r.zones.modify i _)[j]? = some e' ∧ _
  rw [List.getElem?_modify, he]
  by_cases hij : i = j
  · exact ⟨{ e with acc := f e.acc }, by simp [hij], h e.acc⟩
  · exact ⟨e, by simp [hij], le_rfl, le_rfl⟩

/-- A change of every zone that lowers neither (R159). -/
theorem mapZones_grown (r : OpenRecord) {f : ZoneEntry → ZoneEntry}
    (h : ∀ e, e.acc.energy ≤ (f e).acc.energy ∧ e.acc.length ≤ (f e).acc.length) :
    r.Grown { r with zones := r.zones.map f } :=
  ⟨rfl, List.length_map .., fun i e he => ⟨f e, by simp [he], h e⟩⟩

theorem noZone_grown (r : OpenRecord) : r.Grown r.noZone := .of_zones rfl rfl

theorem activated_grown (r : OpenRecord) (zone : Option Nat) (heat : Bool) :
    r.Grown (r.activated zone heat) := by
  cases zone <;> exact .of_zones rfl rfl

theorem warnFlag_grown (r : OpenRecord) (zone : Option Nat) : r.Grown (r.warnFlag zone) := by
  cases zone with
  | none => exact .of_zones rfl rfl
  | some i => exact r.onZone_grown i (f := ({ · with warn := true })) fun _ => ⟨le_rfl, le_rfl⟩

theorem quenchShort_grown (r : OpenRecord) (pos : Int) : r.Grown (r.quenchShort pos) := by
  refine r.mapZones_grown fun e => ?_
  split <;> exact ⟨le_rfl, le_rfl⟩

/-- A power update adds the measured power of its ms (R156). -/
theorem report_grown (r : OpenRecord) (running inhibit : Bool) (u : UpdateReport) :
    r.Grown (r.report running inhibit u) := by
  have told : r.Grown { r with
      ceiling := u.ceiling, pOut := u.pOut, powered := r.powered || decide (0 < u.pOut) } := .of_zones rfl rfl
  unfold report
  dsimp only
  split
  · split
    · exact told.trans (onZone_grown _ _ fun _ => ⟨Nat.le_add_right _ _, le_rfl⟩)
    · exact told
  · exact told

/-- A sample under a HEAT step adds its distance (R157). -/
theorem sample_grown (r : OpenRecord) (running inhibit : Bool) (before now : Int) :
    r.Grown (r.sample running inhibit before now) := by
  unfold sample
  split
  · split
    · refine onZone_grown _ _ fun a => ⟨le_rfl, ?_⟩
      unfold ZoneAcc.sample
      dsimp only
      split
      · exact Nat.le_add_right _ _
      · exact le_rfl
    · exact .refl r
  · exact .refl r

end OpenRecord

/-- Between the two states no number has joined the record list, and a record open behind them was open before and has grown. Every
operation of the part but the acceptance of a START does this. -/
structure Carries (s t : State) : Prop where
  numbers : t.zones.numbers.Sublist s.zones.numbers
  opened : ∀ r', t.zones.openRec = some r' → ∃ r, s.zones.openRec = some r ∧ r.Grown r'

namespace Carries

/-- The record list is as it was. -/
theorem of_zones {s t : State} (h : t.zones = s.zones) : Carries s t := by
  constructor
  · rw [h]
  · exact fun r' e => ⟨r', h ▸ e, .refl r'⟩

theorem refl (s : State) : Carries s s := of_zones rfl

theorem trans {s t u : State} (h : Carries s t) (h' : Carries t u) : Carries s u := by
  refine ⟨h'.numbers.trans h.numbers, fun r'' e => ?_⟩
  obtain ⟨r', e', grown'⟩ := h'.opened r'' e
  obtain ⟨r, e, grown⟩ := h.opened r' e'
  exact ⟨r, e, grown.trans grown'⟩

theorem behind {s t u : State} (h' : Carries t u) (h : Carries s t) : Carries s u := h.trans h'

/-- With no record open behind them the numbers alone are asked for. -/
theorem of_closed {s t : State} (hn : t.zones.numbers.Sublist s.zones.numbers)
    (ho : t.zones.openRec = none) : Carries s t :=
  ⟨hn, fun r' e => by rw [ho] at e; cases e⟩

/-- The open record has been closed (R160). -/
theorem of_close {s t : State} {c : EndCause} {time : Nat} {trip : Option TripRecord}
    (h : t.zones = s.zones.close c time trip) : Carries s t := by
  refine of_closed ?_ ?_ <;> rw [h]
  · rw [Zones.close_numbers]
  · exact (s.zones.close_count c time trip).1

/-- The open record has been updated (R155 to R159). -/
theorem of_onOpen {s t : State} {f : OpenRecord → OpenRecord} (h : t.zones = s.zones.onOpen f)
    (grown : ∀ r : OpenRecord, r.Grown (f r)) : Carries s t := by
  constructor
  · rw [h, Zones.onOpen_numbers _ fun r => (grown r).number]
  · rw [h]
    unfold Zones.onOpen
    intro r' e
    obtain ⟨r, hr, rfl⟩ := Option.map_eq_some_iff.1 e
    exact ⟨r, hr, grown r⟩

end Carries

namespace State

/-! ### Trips (R135 to R147) -/

theorem enterTripped_carries (s : State) : Carries s s.enterTripped := .of_close s.enterTripped_zones

theorem tripProgress_carries (s : State) : Carries s s.tripProgress := by
  rcases s.tripProgress_cases with e | ⟨_, _, e⟩ <;> rw [e]
  · exact .refl s
  · exact s.enterTripped_carries

theorem latchingTrip_carries (s : State) (src : Source) (ch : Option Channel) :
    Carries s (s.latchingTrip src ch) := by
  obtain ⟨u, st, ordered, e⟩ := s.latchingTrip_ordered src ch
  have orders : Carries s u := .of_onOpen ordered.zones OpenRecord.noZone_grown
  rcases e with ⟨_, e⟩ | e <;> rw [e]
  · exact orders
  · exact orders.trans u.enterTripped_carries

theorem furtherTrip_carries (s : State) (src : Source) : Carries s (s.furtherTrip src) := by
  obtain ⟨u, e, _, zones, _⟩ := s.furtherTrip_kept src
  have orders : Carries s u := .of_zones zones
  rcases e with e | ⟨_, e⟩ <;> rw [e]
  · exact orders
  · exact orders.trans u.enterTripped_carries

theorem raise_carries (s : State) (src : Source) (ch : Option Channel) : Carries s (s.raise src ch) := by
  unfold State.raise
  split
  · exact .of_onOpen s.warnRaise_zones (OpenRecord.warnFlag_grown · _)
  · exact .refl s
  · split
    · exact s.furtherTrip_carries src
    · exact s.latchingTrip_carries src ch

theorem raiseIf_carries (s : State) (was now : Bool) (src : Source) (ch : Option Channel) :
    Carries s (s.raiseIf was now src ch) := by
  unfold State.raiseIf
  split
  · exact s.raise_carries src ch
  · exact .refl s

/-- A change beside the record list, and the raise of a condition that it has made present (R130). -/
theorem raised_carries {s u : State} (h : u.zones = s.zones) (was now : Bool) (src : Source)
    (ch : Option Channel) : Carries s (u.raiseIf was now src ch) :=
  (u.raiseIf_carries was now src ch).behind (.of_zones h)

theorem raisePresent_carries (s : State) (test : Source → Bool) : Carries s (s.raisePresent test) := by
  unfold State.raisePresent
  generalize (Source.all.filter test).flatMap s.raisesOf = raises
  induction raises generalizing s with
  | nil => exact .refl s
  | cons p ps ih => exact (s.raise_carries p.1 p.2).trans (ih _)

theorem onTrails_carries (s : State) (f : Quench → Quench) : Carries s (s.onTrails f) :=
  raised_carries (by rfl) _ _ _ _

/-! ### Activations and ends of steps and scans (R25, R33, R35, R43 to R46) -/

theorem exitPrestart_carries (s : State) (c : EndCause) : Carries s (s.exitPrestart c) := by
  have left : Carries s { s with zones := s.zones.onOpen OpenRecord.noZone } :=
    .of_onOpen rfl OpenRecord.noZone_grown
  exact left.trans (.of_close (s.exitPrestart_zones c))

theorem runoutComplete_carries (s : State) : Carries s s.runoutComplete := .of_close s.runoutComplete_zones

theorem runoutMotion_carries (s : State) (returning : Bool) : Carries s (s.runoutMotion returning) := by
  by_cases hs : s.seq.state = .runout
  · rcases s.runoutMotion_cases returning hs with ⟨e, _⟩ | ⟨e, _⟩ | ⟨e, _⟩ <;> rw [e]
    · exact (runoutComplete_carries _).behind (.of_zones rfl)
    · exact .of_zones rfl
    · exact .of_zones rfl
  · rw [s.runoutMotion_other _ hs]
    exact .refl s

theorem runoutEntry_carries (s : State) (c : EndCause) (stop : Option Int) :
    Carries s (s.runoutEntry c stop) := by
  have start : Carries s (s.runoutStart c) := .of_onOpen rfl OpenRecord.noZone_grown
  rw [State.runoutEntry_eq]
  exact (start.trans (State.onTrails_carries _ _)).trans (State.runoutMotion_carries _ _)

theorem vacantCheck_carries (s : State) : Carries s s.vacantCheck := by
  unfold State.vacantCheck
  split
  · split_ifs
    · exact s.runoutEntry_carries _ _
    · exact .refl s
    · exact s.runoutEntry_carries _ _
    · exact .refl s
  · exact .refl s

theorem handZones_carries (s : State) (a : Admitted) : Carries s (s.handZones a) := by
  have enters : ∀ heat, Carries s (s.onZones (·.onOpen (·.activated a.step.zone? heat))) :=
    fun heat => .of_onOpen rfl (OpenRecord.activated_grown · _ heat)
  unfold State.handZones
  dsimp only
  split
  · exact (enters _).trans (.of_onOpen rfl (OpenRecord.warnFlag_grown · _))
  · exact enters _

theorem handQuench_carries (s : State) (a : Admitted) : Carries s (s.handQuench a) := by
  unfold State.handQuench
  dsimp only
  split
  · exact s.onTrails_carries _
  · exact s.onTrails_carries _
  · exact .of_zones rfl
  · exact .refl s

theorem activate_carries (s : State) (a : Admitted) : Carries s (s.activate a) := by
  have handed : Carries s (((s.onSeq (·.activated a)).sendMarks a.marks).handTravel a) :=
    .of_zones (by simp)
  have spins : ∀ u : State, Carries u (u.handSpindle a) := fun u => .of_zones (by simp)
  exact ((handed.trans (State.handZones_carries _ a)).trans (spins _)).trans
    (State.handQuench_carries _ a)

theorem proceed_carries (s : State) : Carries s s.proceed := by
  unfold State.proceed
  split
  · split
    · split
      · exact .of_zones rfl
      · exact .of_zones rfl
    · exact s.activate_carries _
  · exact .of_zones rfl

theorem clearActive_carries (s : State) (a : Admitted) : Carries s (s.clearActive a) := by
  unfold State.clearActive
  dsimp only
  split <;> exact .of_onOpen rfl OpenRecord.noZone_grown

theorem stepEnd_carries (s : State) : Carries s s.stepEnd := by
  unfold State.stepEnd
  split
  · exact .refl s
  · have cleared := s.clearActive_carries ‹_›
    dsimp only
    split_ifs
    · exact cleared.trans (State.proceed_carries _)
    · exact cleared.trans (State.runoutEntry_carries _ _ _)
    · exact cleared.trans (State.runoutEntry_carries _ _ _)
    · exact cleared.trans (.of_zones rfl)
    · exact cleared.trans (State.runoutEntry_carries _ _ _)

/-! ### The position sample (R48, R157, R159) -/

/-- A ring's report flags zones of the open record (R159). -/
theorem quenchShort_carries (s : State) (k : Ring) : Carries s (s.quenchShort k) := by
  unfold State.quenchShort
  split
  · split
    · exact .of_onOpen rfl (OpenRecord.quenchShort_grown · _)
    · exact .refl s
  · exact .refl s

/-- A sample's own part: the sample counted, then both rings' reports. -/
theorem sampledPart_carries (s : State) (r : Reading) : Carries s (s.sampledPart r) := by
  have counted : Carries s ((s.readSample r).countSample s.travel.position) :=
    .of_onOpen rfl (OpenRecord.sample_grown · _ _ _ _)
  have released : ∀ u : State, Carries u u.releaseSample := fun u => by
    obtain ⟨_, _, _, _, zones⟩ := u.releaseSample_kept
    exact .of_zones zones
  exact (((counted.trans (released _)).trans (State.quenchShort_carries _ .q1)).trans
    (State.quenchShort_carries _ .q2)).trans (.of_zones rfl)

/-- A test of the carriage: its condition, and the raise when it has become present (R130). -/
theorem test_carries (s : State) (f : Travel → Travel) (was now : Bool) (src : Source) :
    Carries s ((s.onTravel f).raiseIf was now src) := raised_carries (by rfl) _ _ _ _

theorem testLimits_carries (s : State) (r : Reading) : Carries s (s.testLimits r) := by
  have soft : ∀ u : State, Carries u u.testSoft := fun u => u.test_carries _ _ _ _
  have low : ∀ (u : State) b, Carries u (u.testLow b) := fun u b => u.test_carries _ _ _ _
  have high : ∀ (u : State) b, Carries u (u.testHigh b) := fun u b => u.test_carries _ _ _ _
  have encoder : ∀ (u : State) b, Carries u (u.testEncoder b) := fun u b => u.test_carries _ _ _ _
  have follow : ∀ u : State, Carries u u.testFollow := fun u => u.test_carries _ _ _ _
  exact ((((soft s).trans (low _ _)).trans (high _ _)).trans (encoder _ _)).trans (follow _)

/-- Orders to the generator alone. -/
theorem Ordered.carries {s u : State} (h : s.Ordered u) : Carries s u := by
  obtain ⟨x, rfl, _⟩ := h
  exact .of_zones rfl

theorem positionSample_carries (s : State) (r : Reading) : Carries s (s.positionSample r) := by
  have tests : ∀ u : State, Carries u (u.modeTested r) := fun u => by
    have tested := ((u.seekSample_ordered r.refSwitch).trans (State.arrivalSample_ordered _)).carries
    unfold State.modeTested State.scanSample
    split
    · exact tested.trans (State.stepEnd_carries _)
    · exact tested.trans (State.brakeSample_ordered _).carries
  rw [positionSample_eq]
  exact (((s.sampledPart_carries r).trans (State.testLimits_carries _ r)).trans (tests _)).trans
    (.of_zones rfl)

/-! ### The part's own steps, timers, inputs and conversions -/

theorem sourceHead_carries (s : State) : Carries s s.sourceHead := by
  unfold State.sourceHead
  split
  · dsimp only
    split
    · exact .of_zones rfl
    · unfold State.resumeLoader
      split
      · split <;> exact .of_zones rfl
      · exact .of_zones rfl
    · exact .of_zones rfl
    · exact .refl s
  · exact .refl s

theorem admission_carries (s : State) : Carries s s.admission := by
  have falls : ∀ u : State, Carries u u.flowFall := fun u => by
    unfold State.flowFall
    split <;> exact .of_zones rfl
  have fills : ∀ q, Carries s (s.onSeq q).flowFall.sourceHead := fun q =>
    (State.sourceHead_carries _).behind ((falls _).behind (.of_zones rfl))
  unfold State.admission
  split
  · split
    · dsimp only
      split
      · split
        · exact (fills _).trans (State.proceed_carries _)
        · exact fills _
      · unfold State.programError
        split
        · exact s.exitPrestart_carries _
        · exact s.runoutEntry_carries _ _
    · exact .refl s
  · exact .refl s

theorem loaderAppend_carries (s : State) : Carries s s.loaderAppend := by
  unfold State.loaderAppend
  split
  · split
    · split
      · exact (State.vacantCheck_carries _).behind ((State.sourceHead_carries _).behind (.of_zones rfl))
      · exact .refl s
    · exact .refl s
  · exact .refl s

theorem enterRunning_carries (s : State) : Carries s s.enterRunning := by
  unfold State.enterRunning
  split
  · exact (State.vacantCheck_carries _).behind ((State.proceed_carries _).behind (.of_zones rfl))
  · exact .refl s

theorem returned_carries (s : State) : Carries s s.returned := by
  unfold State.returned
  split
  · split
    · exact s.activate_carries _
    · exact .refl s
  · exact .refl s

theorem turnStoppedActivation_carries (s : State) : Carries s s.turnStoppedActivation := by
  unfold State.turnStoppedActivation
  split
  · split
    · exact s.activate_carries _
    · exact .refl s
  · exact .refl s

theorem arrived_carries (s : State) : Carries s s.arrived := by
  unfold State.arrived
  split
  · split <;> exact .of_zones rfl
  · exact .refl s

theorem stoppingComplete_carries (s : State) : Carries s s.stoppingComplete := by
  have held : Carries s (s.onTravel Travel.orderHold) := .of_zones rfl
  unfold State.stoppingComplete
  split
  · dsimp only
    split
    case h_1 =>
      unfold State.homingEnd
      split <;> exact .of_zones rfl
    case h_3 =>
      unfold State.beginReturn
      split
      · split <;> exact .of_zones rfl
      · exact held
    case h_4 =>
      split
      · exact held.trans (State.runoutComplete_carries _)
      · exact .of_zones rfl
    case h_5 =>
      unfold State.trippingStopped
      split
      · exact .of_zones rfl
      · exact (State.tripProgress_carries _).behind (.of_zones rfl)
    all_goals exact .of_zones rfl
  · exact .refl s

theorem prestartTimeout_carries (s : State) : Carries s s.prestartTimeout := by
  unfold State.prestartTimeout
  split
  · exact s.exitPrestart_carries _
  · exact .refl s

theorem stepTick_carries (s : State) : Carries s s.stepTick := by
  unfold State.stepTick
  dsimp only
  split
  · exact .of_zones rfl
  · split
    · exact (State.stepEnd_carries _).behind (.of_zones rfl)
    · exact .of_zones rfl

/-- A lost flow: the report of a ring, and the raise (R104, R105, R107). -/
theorem flowLost_carries (s : State) (k : Circuit) : Carries s (s.flowLost k) := by
  unfold State.flowLost
  dsimp only
  refine (State.raise_carries _ _ _).behind ?_
  cases k
  · exact (State.quenchShort_carries _ _).behind (.of_zones rfl)
  · exact (State.quenchShort_carries _ _).behind (.of_zones rfl)
  · exact .of_zones rfl

/-- A watch timer's expiry where it runs. -/
theorem watchExpiry_carries (s : State) (k : Circuit) (p : Prop) [Decidable p] :
    Carries s (if p then s.flowLost k else s) := by
  split
  · exact s.flowLost_carries k
  · exact .refl s

theorem floodExpired_carries (s : State) : Carries s s.floodExpired := by
  unfold State.floodExpired
  split
  · dsimp only
    split
    · exact (State.tripProgress_carries _).behind (.of_zones rfl)
    · exact .of_zones rfl
  · exact .refl s

theorem coilWaterExpired_carries (s : State) : Carries s s.coilWaterExpired := by
  unfold State.coilWaterExpired
  split
  · exact raised_carries (by rfl) _ _ _ _
  · exact .refl s

theorem lowCountReached_carries (s : State) : Carries s s.lowCountReached := by
  unfold State.lowCountReached
  split
  · exact (State.raise_carries _ _ _).behind (.of_zones rfl)
  · exact .refl s

/-- The owners' tests of published values (R86, R87, R104, R108, R132, R133). -/
theorem publish_carries (s : State) (c : Channel) (v : Int) : Carries s (s.publish c v) := by
  cases c
  case coilI | pyro | qTemp => exact raised_carries (by rfl) _ _ _ _
  case qPress =>
    show Carries s (s.takePressure v)
    unfold State.takePressure
    dsimp only
    split
    · exact .refl s
    · exact (State.vacantCheck_carries _).behind (.of_zones rfl)
  all_goals exact .of_zones rfl

theorem conversionComplete_carries (s : State) (code : Nat) : Carries s (s.conversionComplete code) := by
  have result : ∀ (u : State) b, Carries u (u.burstResult b) := fun u b => by
    unfold State.burstResult
    split
    · split
      · exact (State.publish_carries _ _ _).behind (.of_zones rfl)
      · unfold State.faultedSample
        dsimp only
        split
        · exact (State.raiseIf_carries _ _ _ _ _).behind
            ((State.publish_carries _ _ _).behind (.of_zones rfl))
        · exact raised_carries (by rfl) _ _ _ _
    · exact .of_zones rfl
  unfold State.conversionComplete
  split
  · exact .refl s
  · dsimp only
    split
    · have free : Carries s (s.onMeas ({ · with converter := none })) := .of_zones rfl
      exact (free.trans (result _ _)).trans (.of_zones rfl)
    · exact .of_zones rfl

end State

end Sys2Proof.Machine

namespace Sys2Proof.Machine

/-- A START has been accepted: a record has been opened from IDLE, with room in the list (R23, R153). -/
def Begins (s t : State) : Prop := s.seq.state = .idle ∧ s.zones.count < 8 ∧
  ∃ part page source windows, t.zones = s.zones.openRecord part page source windows

namespace State

/-! ### Requests and the record list -/

theorem answer_carries (s : State) (kind tag : Byte) (a : Answer) : Carries s (s.answer kind tag a) :=
  .of_zones rfl

/-- A START that passes its checks opens a record (R23, R24, R153). -/
theorem start_begins (s : State) (kind tag : Byte) (third : Option ResultCode) (p : StartPlan)
    (ht : third ≠ some .ok) :
    let t := if (s.startReply third).1 = .ok then (s.answer kind tag (s.startReply third)).acceptStart p
      else s.answer kind tag (s.startReply third)
    Carries s t ∨ Begins s t := by
  intro t
  by_cases hok : (s.startReply third).1 = .ok
  · obtain ⟨idle, room⟩ := s.startAnswer_ok third hok ht
    refine .inr ⟨idle, room, p.part, p.page, if p.page.isSome then .profile else .link, p.windows, ?_⟩
    simp only [t, if_pos hok]
    unfold State.acceptStart
    split <;> rfl
  · simp only [t, if_neg hok]
    exact .inl (s.answer_carries _ _ _)

theorem serveConfig_carries {α : Type} (s : State) (tag : Byte) (want : Nat) (items : List Int)
    (read : Option α) (write : α → State → State) (h : ∀ c u, Carries u (write c u)) :
    Carries s (s.serveConfig tag want items read write) := by
  unfold State.serveConfig
  dsimp only
  split
  · split
    · exact (h _ _).behind (s.answer_carries _ _ _)
    · exact s.answer_carries _ _ _
  · exact s.answer_carries _ _ _

/-- RESTART keeps the record list (R169). -/
theorem serveRestart_carries (s : State) (tag : Byte) : Carries s (s.serveRestart tag) := by
  unfold State.serveRestart
  dsimp only
  split
  · exact (State.raisePresent_carries _ _).behind (.of_zones rfl)
  · exact s.answer_carries _ _ _

theorem stopEffect_carries (s : State) : Carries s s.stopEffect := by
  unfold State.stopEffect
  split
  case h_1 => exact s.exitPrestart_carries _
  case h_2 => exact s.runoutEntry_carries _ _
  all_goals exact .of_zones rfl

theorem serveStep_carries (s : State) (tag : Byte) (r : StepRecord) : Carries s (s.serveStep tag r) := by
  have told := s.answer_carries 0x09#8 tag (s.stepAnswer r)
  have accepted : ∀ (u : State) step, Carries u (u.acceptStep step) := fun u step => by
    have joins : Carries u ((u.joined step).chooseSpin step) := by
      unfold State.chooseSpin
      split
      · split <;> exact .of_zones rfl
      · exact .of_zones rfl
    rw [State.acceptStep_eq]
    exact (joins.trans (State.sourceHead_carries _)).trans (State.vacantCheck_carries _)
  unfold State.serveStep
  dsimp only
  split
  · split
    · exact told.trans (accepted _ _)
    · exact told
  · exact told

theorem serveTrim_carries (s : State) (tag : Byte) (t sp m : Nat) : Carries s (s.serveTrim tag t sp m) := by
  have retrims : ∀ u : State, Carries u u.retrim := fun u => by
    unfold State.retrim
    split
    · split <;> exact .of_zones rfl
    · exact .refl u
  unfold State.serveTrim State.trimEffect
  dsimp only
  split
  · split
    · exact (retrims _).behind (.of_zones rfl)
    · exact .of_zones rfl
  · exact s.answer_carries _ _ _

/-- A closed record leaves the list (R167). -/
theorem serveRelease_carries (s : State) (tag : Byte) (n : Nat) : Carries s (s.serveRelease tag n) := by
  unfold State.serveRelease
  dsimp only
  split
  · exact ⟨s.zones.release_numbers n, fun r' e => ⟨r', e, .refl r'⟩⟩
  · exact s.answer_carries _ _ _

/-- Serving a request that has been taken: a START alone opens a record (R188). -/
theorem serve_carries (s : State) (tag : Byte) (r : Request) :
    Carries s (s.serve tag r) ∨ Begins s (s.serve tag r) := by
  cases r
  case startProfile p g =>
    refine s.start_begins _ tag _ _ ?_
    unfold State.profileCheck
    split <;> nofun
  case startStream g ws =>
    refine s.start_begins _ tag _ _ ?_
    unfold streamCheck
    split <;> nofun
  all_goals left
  case configureMachine | configureQuench | configureMeasure | configureFlow | configurePrestart =>
    dsimp only [State.serve, State.serveMachine, State.serveQuenchGroup, State.serveMeasure,
      State.serveFlowGroup, State.servePrestartGroup]
    exact s.serveConfig_carries _ _ _ _ _ fun _ _ => .of_zones rfl
  case configureTrip =>
    dsimp only [State.serve, State.serveTripGroup, State.reclass]
    exact s.serveConfig_carries _ _ _ _ _ fun _ _ => (State.raisePresent_carries _ _).behind (.of_zones rfl)
  case restart => exact s.serveRestart_carries tag
  case stop => exact (State.stopEffect_carries _).behind (s.answer_carries _ _ _)
  case step r => exact s.serveStep_carries tag r
  case trim t sp m => exact s.serveTrim_carries tag t sp m
  case forceTrip =>
    dsimp only [State.serve, State.serveForceTrip]
    exact (State.raise_carries _ _ _).behind (s.answer_carries _ _ _)
  case recordRelease n => exact s.serveRelease_carries tag n
  case status | inhibitOn | inhibitOff | profileList | recordGet => exact .of_zones rfl
  case home | moveTo | clearTrip | profileOpen | profileData | profileClose | profileErase =>
    refine .of_zones ?_
    dsimp only [State.serve, State.serveHome, State.serveMoveTo, State.serveClearTrip, State.serveOpen,
      State.serveData, State.serveClose, State.serveErase]
    split <;> rfl

theorem request_carries (s : State) (tag : Byte) (r : Request) :
    Carries s (s.request tag r (·.serve tag r)) ∨ Begins s (s.request tag r (·.serve tag r)) := by
  unfold State.request
  split_ifs
  · exact .inl (.refl s)
  · exact s.serve_carries tag r
  · exact .inl (.of_zones rfl)

theorem dispatch_carries (s : State) : Carries s s.dispatch ∨ Begins s s.dispatch := by
  unfold State.dispatch
  split
  · exact .inl (.refl s)
  · rename_i rest _
    split
    · dsimp only
      split
      · exact .inl (.of_zones rfl)
      · exact .inl (.of_zones rfl)
      · have taken : Carries s (s.onLink ({ · with rxBuffer := rest })) := .of_zones rfl
        exact (State.serve_carries _ _ _).imp taken.trans id
    · exact .inl (.refl s)

/-- RESET empties the record list, and the raises behind it open none (R152, R169, R196). -/
theorem resetPart_carries (s : State) : Carries s s.resetPart := by
  have emptied : Carries s (State.afterReset s.inputs s.pending) := .of_closed (List.nil_sublist _) rfl
  exact emptied.trans (State.raisePresent_carries _ _)

end State

/-! ### Every command -/

/-- Every command carries the record list on, or is a START that has been accepted. -/
theorem exec_carries (c : Instr) (s t : State) (e : exec c s = .next t) : Carries s t ∨ Begins s t := by
  cases hr : c.request with
  | some p =>
    rw [exec_request c p.1 p.2 s hr] at e
    cases e
    exact s.request_carries _ _
  | none =>
    cases c
    case dispatch => cases e; exact s.dispatch_carries
    all_goals left
    case reset => cases e; exact s.resetPart_carries
    case frameReceived | receiveGapTimeout | byteReceived | requestTimerExpiry | calibrationTimerExpiry |
        pumpIdleTimerExpiry => cases e; exact .of_zones rfl
    case frameSent =>
      cases e
      unfold State.frameSent
      split <;> exact .of_zones rfl
    case positionSample => cases e; exact s.positionSample_carries _
    case powerUpdate => cases e; exact .of_onOpen rfl (OpenRecord.report_grown · _ _ _)
    case stepTimerExpiry => cases e; exact s.stepTick_carries
    case prestartTimeout => cases e; exact s.prestartTimeout_carries
    case conversionComplete code => cases e; exact s.conversionComplete_carries code
    case provingTimerExpiry k => cases e; exact s.watchExpiry_carries k _
    case dropoutTimerExpiry k => cases e; exact s.watchExpiry_carries k _
    case floodTimerExpiry => cases e; exact s.floodExpired_carries
    case coilWaterTimerExpiry => cases e; exact s.coilWaterExpired_carries
    case lowCountReached => cases e; exact s.lowCountReached_carries
    case readyInputChange | faultInputChange | emergencyStopInput | encoderFaultInput =>
      cases e
      exact State.raised_carries (by rfl) _ _ _ _
    case stoppingComplete => cases e; exact s.stoppingComplete_carries
    case arrived => cases e; exact s.arrived_carries
    case returned => cases e; exact s.returned_carries
    case turnStoppedActivation => cases e; exact s.turnStoppedActivation_carries
    case enterRunning => cases e; exact s.enterRunning_carries
    case admission => cases e; exact s.admission_carries
    case loaderAppend => cases e; exact s.loaderAppend_carries
    all_goals cases hr

/-- A step is a command from a state that differs in the waiting commands alone. -/
theorem step_carries (s t : State) (e : step s = .next t) : Carries s t ∨ Begins s t := by
  unfold step at e
  split at e
  · cases e
    exact .inl (.refl s)
  · rename_i c rest _
    have taken : Carries s { s with pending := rest } := .of_zones rfl
    exact (exec_carries c _ t e).imp taken.trans id

/-- Settles O11: no number joins the list but that of a START, which is free. -/
theorem recordNumbersDistinct : Obligations.RecordNumbersDistinct := by
  intro s t distinct e
  rcases step_carries s t e with carried | ⟨_, room, _, _, _, _, zones⟩
  · exact distinct.sublist carried.numbers
  · rw [zones]
    exact Zones.openRecord_nodup distinct room _ _ _ _

/-- Settles O15: a record open behind a step was open before it and has grown, since no START finds one open. -/
theorem zoneTotalsNeverDecrease : Obligations.ZoneTotalsNeverDecrease := by
  intro s t r r' h e hr hr' _
  rcases step_carries s t e with carried | ⟨idle, _⟩
  · obtain ⟨o, ho, grown⟩ := carried.opened r' hr'
    obtain rfl : o = r := Option.some.inj (ho.symm.trans hr)
    refine ⟨grown.length, fun i x x' hx hx' => ?_⟩
    obtain ⟨y, hy, energy, length⟩ := grown.counts i x hx
    obtain rfl : y = x' := Option.some.inj (hy.symm.trans hx')
    exact ⟨energy, length⟩
  · have none' := (h.closed (by rw [idle]; rfl) (by rw [idle]; nofun)).1
    rw [hr] at none'
    cases none'

end Sys2Proof.Machine

namespace Sys2Proof.Machine

/-! ### The record list on the link (R166, R167, R180) -/

namespace Zones

theorem isOpenNumber_iff (z : Zones) (n : Nat) :
    z.isOpenNumber n = true ↔ ∃ o, z.openRec = some o ∧ o.number = n := by
  unfold isOpenNumber
  cases z.openRec <;> simp

/-- A number of the list is that of a closed record or of the open one. -/
theorem mem_numbers (z : Zones) (n : Nat) :
    n ∈ z.numbers ↔ (∃ r ∈ z.closed, r.number = n) ∨ z.isOpenNumber n = true := by
  rw [isOpenNumber_iff]
  unfold numbers
  cases z.openRec <;> simp [eq_comm]

/-- In a list of distinct numbers a closed record does not carry the open record's. -/
theorem not_isOpenNumber {z : Zones} (h : z.numbers.Nodup) {r : PartRecord} (hr : r ∈ z.closed) :
    z.isOpenNumber r.number = false := by
  rw [Bool.eq_false_iff, ne_eq, isOpenNumber_iff]
  rintro ⟨o, ho, number⟩
  unfold numbers at h
  rw [ho] at h
  exact List.disjoint_of_nodup_append h (List.mem_map_of_mem hr) (List.mem_singleton.2 number.symm)

/-- RECORD-GET of 0 asks for the oldest record (R166). -/
theorem getAnswer_oldest {z : Zones} {r : PartRecord} {rest : List PartRecord} (h : z.closed = r :: rest) :
    z.getAnswer 0 = (.ok, r.bytes) := by
  unfold getAnswer find
  rw [if_pos rfl, h]
  rfl

theorem getAnswer_empty {z : Zones} (h : z.closed = []) : z.getAnswer 0 = (.notFound, []) := by
  unfold getAnswer find
  rw [if_pos rfl, h]
  rfl

/-- RECORD-GET of a number answers the first closed record that carries it (R166). -/
theorem getAnswer_closed {z : Zones} {n : Nat} {a b : List PartRecord} {r : PartRecord} (hn : n ≠ 0)
    (hz : z.closed = a ++ r :: b) (ha : ∀ x ∈ a, x.number ≠ n) (hr : r.number = n) :
    z.getAnswer n = (.ok, r.bytes) := by
  have found : z.find n = some r := by
    unfold find
    rw [if_neg hn, hz]
    exact List.find?_eq_some_iff_append.2 ⟨by simp [hr], a, b, rfl, by simpa using ha⟩
  unfold getAnswer
  rw [found]

/-- RECORD-GET of a number that no closed record carries: STATE for the open one, NOT_FOUND for none (R166). -/
theorem getAnswer_absent {z : Zones} {n : Nat} (hn : n ≠ 0) (h : ∀ x ∈ z.closed, x.number ≠ n) :
    z.getAnswer n = if z.isOpenNumber n then (.state, []) else (.notFound, []) := by
  have missed : z.find n = none := by
    unfold find
    rw [if_neg hn]
    exact List.find?_eq_none.2 (by simpa using h)
  unfold getAnswer
  rw [missed]
  simp [hn]

/-- A release in a list of distinct numbers takes one closed record and keeps the order of the others (R167). -/
theorem release_closed {z : Zones} (h : z.numbers.Nodup) {a b : List PartRecord} {r : PartRecord}
    (hz : z.closed = a ++ r :: b) : z.release r.number = { z with closed := a ++ b } := by
  have distinct : ((a ++ r :: b).map (·.number)).Nodup := hz ▸ h.sublist (List.sublist_append_left ..)
  rw [List.map_append, List.map_cons, List.nodup_middle, List.nodup_cons, ← List.map_append] at distinct
  have others : ∀ x ∈ a ++ b, (x.number != r.number) = true := fun x hx =>
    bne_iff_ne.2 fun e => distinct.1 (e ▸ List.mem_map_of_mem hx)
  have kept : (a ++ r :: b).filter (·.number != r.number) = a ++ b := by
    rw [List.filter_append, List.filter_cons_of_neg (by simp), ← List.filter_append,
      List.filter_eq_self.2 others]
  unfold release
  rw [hz, kept]

end Zones

/-- An entry of PROFILE-LIST has 18 bytes (R180). -/
theorem Store.entry_length (st : Store) (i : Nat) : (st.entry i).length = 18 := by
  unfold Store.entry
  dsimp only
  cases (st.page i).owner with
  | none => simp
  | some o =>
    dsimp only
    split <;> simp [be2, be4, be8]

theorem Store.listPayload_length (st : Store) : st.listPayload.length = 288 := by
  unfold Store.listPayload pageCount
  rw [List.length_flatMap]
  simp [Store.entry_length]

/-- Settles O39: the answer is a reply alone, read from the tables. -/
theorem listAndRecordGet : Obligations.ListAndRecordGet := by
  intro tag s n taken
  have got : ∀ (result : ResultCode) (payload : List Byte), s.zones.getAnswer n = (result, payload) →
      exec (.recordGet tag n) s = .next (s.replied 0x98#8 tag result payload) := fun result payload h => by
    rw [exec_recordGet_taken n taken]
    unfold State.serveGet
    rw [h]
    rfl
  refine ⟨exec_profileList_taken taken, s.store.listPayload_length, ?_, ?_, ?_, ?_, ?_⟩
  · rintro r rest rfl closed
    exact got _ _ (Zones.getAnswer_oldest closed)
  · rintro rfl closed
    exact got _ _ (Zones.getAnswer_empty closed)
  · intro a r b hn closed before number
    exact got _ _ (Zones.getAnswer_closed hn closed before number)
  · intro o hn absent ho number
    exact got _ _ (by
      rw [Zones.getAnswer_absent hn absent, if_pos ((Zones.isOpenNumber_iff _ _).2 ⟨o, ho, number⟩)])
  · intro hn none'
    rw [Zones.mem_numbers, not_or] at none'
    obtain ⟨notClosed, notOpen⟩ := none'
    exact got _ _ (by
      rw [Zones.getAnswer_absent hn fun x hx e => notClosed ⟨x, hx, e⟩, if_neg notOpen])

/-- Settles O40: a closed record of the number excludes the open one, and the filter takes it alone. -/
theorem recordReleaseFrees : Obligations.RecordReleaseFrees := by
  intro tag s n taken distinct
  have refused : ∀ result, s.zones.releaseAnswer n = result → result ≠ .ok →
      exec (.recordRelease tag n) s = .next (s.replied 0x99#8 tag result []) := fun result h hok => by
    rw [exec_recordRelease_taken n taken]
    unfold State.serveRelease
    dsimp only
    rw [h, if_neg hok]
    rfl
  refine ⟨?_, ?_, ?_⟩
  · rintro a r b closed rfl
    have mem : r ∈ s.zones.closed := by simp [closed]
    have ok : s.zones.releaseAnswer r.number = .ok := by
      unfold Zones.releaseAnswer
      rw [Zones.not_isOpenNumber distinct mem, if_neg nofun, if_pos]
      exact List.any_eq_true.2 ⟨r, mem, beq_self_eq_true _⟩
    have freed := Zones.release_closed distinct closed
    rw [exec_recordRelease_taken r.number taken]
    unfold State.serveRelease
    dsimp only
    rw [ok, if_pos rfl]
    exact congrArg (fun z => Host.Outcome.next { s with
      zones := z, link := s.link.placeReply ⟨0x99#8, tag, .ok, []⟩ }) freed
  · intro o ho number
    refine refused .state ?_ nofun
    unfold Zones.releaseAnswer
    rw [if_pos ((Zones.isOpenNumber_iff _ _).2 ⟨o, ho, number⟩)]
  · intro none'
    rw [Zones.mem_numbers, not_or] at none'
    obtain ⟨notClosed, notOpen⟩ := none'
    refine refused .notFound ?_ nofun
    unfold Zones.releaseAnswer
    rw [if_neg notOpen, if_neg]
    simpa using notClosed

end Sys2Proof.Machine

namespace Sys2Proof.Machine

/-! ### The close of a record (R161 to R163) -/

/-- The summaries stand in zone order, each of its own zone. -/
theorem summariesFrom_getElem? (c : EndCause) (l : Option Nat) (k : Nat) (es : List ZoneEntry) (i : Nat) :
    (summariesFrom c l k es)[i]? = es[i]?.map fun e => e.summary c l (k + i) := by
  induction es generalizing k i with
  | nil => rfl
  | cons e es ih =>
    cases i with
    | zero => rfl
    | succ i =>
      show (summariesFrom c l (k + 1) es)[i]? = _
      rw [ih, Nat.add_right_comm]
      rfl

theorem OpenRecord.close_zone (r : OpenRecord) (c : EndCause) (time : Nat) (trip : Option TripRecord)
    (i : Nat) : (r.close c time trip).zones[i]? = r.zones[i]?.map fun e => e.summary c r.lastZone i := by
  show (summariesFrom c r.lastZone 0 r.zones)[i]? = _
  rw [summariesFrom_getElem?, Nat.zero_add]

theorem OpenRecord.close_zones_length (r : OpenRecord) (c : EndCause) (time : Nat)
    (trip : Option TripRecord) : (r.close c time trip).zones.length = r.zones.length :=
  summariesFrom_length ..

theorem interruptedZone_iff (c : EndCause) (last : Option Nat) (i : Nat) :
    interruptedZone c last i = true ↔ c ≠ .complete ∧ last = some i := by
  simp [interruptedZone]

namespace ZoneEntry

/-- The window table in kind DENSITY (R161). -/
theorem density_flags (e : ZoneEntry) (h : e.window.kind = .density) :
    let density := e.acc.energy * 100 / e.acc.length
    (e.outLow = true ↔ e.acc.length < 1000 ∨ 0 < e.window.low ∧ density < e.window.low) ∧
      (e.outHigh = true ↔ 1000 ≤ e.acc.length ∧ e.window.high ≠ 0 ∧ e.window.high < density) := by
  simp [outLow, outHigh, h, and_assoc]

/-- The window table in kind TOTAL, in J against kJ (R161). -/
theorem total_flags (e : ZoneEntry) (h : e.window.kind = .total) :
    (e.outLow = true ↔ 0 < e.window.low ∧ e.acc.energy / 10 < e.window.low * 1000) ∧
      (e.outHigh = true ↔ e.window.high ≠ 0 ∧ e.window.high * 1000 < e.acc.energy / 10) := by
  rw [show e.acc.energy / 10 = e.acc.joules from rfl]
  simp [outLow, outHigh, h]

end ZoneEntry

theorem ZoneSummary.bad_iff (z : ZoneSummary) : z.bad = true ↔
    z.outLow = true ∨ z.outHigh = true ∨ z.quenchShort = true ∨ z.interrupted = true := by
  simp [bad, or_assoc]

/-! ### The verdict (R162) -/

theorem verdictOf_unpowered (c : EndCause) (zs : List ZoneSummary) : verdictOf false c zs = .notRun := rfl

theorem verdictOf_pass {zs : List ZoneSummary} (h : ∀ z ∈ zs, z.bad = false) :
    verdictOf true .complete zs = .pass := by
  have none' : zs.any ZoneSummary.bad = false := List.any_eq_false.2 fun z hz => by simp [h z hz]
  simp [verdictOf, none']

theorem verdictOf_reject {c : EndCause} {zs : List ZoneSummary}
    (h : c ≠ .complete ∨ ∃ z ∈ zs, z.bad = true) : verdictOf true c zs = .reject := by
  have fails : (c == .complete && !zs.any ZoneSummary.bad) = false := by
    rcases h with h | h
    · simp [h]
    · simp [List.any_eq_true.2 h]
  simp only [verdictOf, fails]
  rfl

/-- Settles O41: each summary is that of its zone's entry, and the verdict asks for the powered mark first. -/
theorem verdictOfARecord : Obligations.VerdictOfARecord := by
  intro r cause time trip p
  have entry : ∀ {i z}, p.zones[i]? = some z →
      ∃ e, r.zones[i]? = some e ∧ ZoneEntry.summary e cause r.lastZone i = z :=
    fun {i z} h => Option.map_eq_some_iff.1 ((r.close_zone cause time trip i).symm.trans h)
  have verdict : p.verdict = verdictOf r.powered cause p.zones := rfl
  refine ⟨fun z hz => ?_, r.close_zones_length cause time trip, fun i z hz => ?_, ?_, rfl, ?_, ?_, ?_⟩
  · obtain ⟨i, hi⟩ := List.mem_iff_getElem?.1 hz
    obtain ⟨e, _, rfl⟩ := entry hi
    exact interruptedZone_iff cause r.lastZone i
  · obtain ⟨e, _, rfl⟩ := entry hz
    rfl
  · intro i e z he hz w density
    obtain ⟨e', he', rfl⟩ := entry hz
    obtain rfl : e' = e := Option.some.inj (he'.symm.trans he)
    exact ⟨rfl, rfl, rfl, rfl, e'.density_flags, e'.total_flags⟩
  · intro off
    rw [verdict, off, verdictOf_unpowered]
  · intro on complete good
    rw [verdict, on, complete]
    refine verdictOf_pass fun z hz => ?_
    obtain ⟨low, high, short, interrupted⟩ := good z hz
    simp [ZoneSummary.bad, low, high, short, interrupted]
  · intro on failed
    rw [verdict, on]
    refine verdictOf_reject (failed.imp id ?_)
    rintro ⟨z, hz, flags⟩
    exact ⟨z, hz, z.bad_iff.2 flags⟩

end Sys2Proof.Machine

namespace Sys2Proof.Machine

/-! ### What the operations inside a command leave alone

Waiting commands, configuration and input levels, and of the store all but its in-use mark: pages and written marks are
changed by the requests of the Profile Store and by RESET alone (R170, R178, R193). -/

/-- Pages and written marks: a store without its in-use mark (R170). -/
def Store.contents (st : Store) : List Page × List Bool × List Bool := (st.pages, st.zoneMarks, st.stepMarks)

@[simp] theorem Store.contents_inUse (st : Store) (p : Option Nat) :
    Store.contents { st with inUse := p } = st.contents := rfl

/-- What stands through every event but an input change, a dispatch and RESET. -/
def State.frame (s : State) :
    List Instr × ConfigGroups × Inputs × (List Page × List Bool × List Bool) :=
  (s.pending, s.cfg, s.inputs, s.store.contents)

theorem State.contents_of_frame {s t : State} (h : t.frame = s.frame) : t.store.contents = s.store.contents :=
  congrArg (fun x => x.2.2.2) h

namespace State

@[simp] theorem onSeq_frame (s : State) (f : Seq → Seq) : (s.onSeq f).frame = s.frame := rfl
@[simp] theorem onTravel_frame (s : State) (f : Travel → Travel) : (s.onTravel f).frame = s.frame := rfl
@[simp] theorem onPower_frame (s : State) (f : Power → Power) : (s.onPower f).frame = s.frame := rfl
@[simp] theorem onQuench_frame (s : State) (f : Quench → Quench) : (s.onQuench f).frame = s.frame := rfl
@[simp] theorem onMeas_frame (s : State) (f : Meas → Meas) : (s.onMeas f).frame = s.frame := rfl
@[simp] theorem onTrip_frame (s : State) (f : TripUnit → TripUnit) : (s.onTrip f).frame = s.frame := rfl
@[simp] theorem onZones_frame (s : State) (f : Zones → Zones) : (s.onZones f).frame = s.frame := rfl
@[simp] theorem onLink_frame (s : State) (f : Link → Link) : (s.onLink f).frame = s.frame := rfl
@[simp] theorem notify_frame (s : State) (n : Notice) : (s.notify n).frame = s.frame := rfl
@[simp] theorem enter_frame (s : State) (st : SeqState) (c : Cause) : (s.enter st c).frame = s.frame := rfl
@[simp] theorem setSpindle_frame (s : State) (r : Nat) : (s.setSpindle r).frame = s.frame := rfl
@[simp] theorem answer_frame (s : State) (kind tag : Byte) (a : Answer) :
    (s.answer kind tag a).frame = s.frame := rfl

/-! #### Trips (R135 to R147) -/

@[simp] theorem zeroOrder_frame (s : State) : s.zeroOrder.frame = s.frame := by
  simp [frame]

@[simp] theorem haltOrders_frame (s : State) : s.haltOrders.frame = s.frame := by
  simp [frame]

@[simp] theorem haltResponse_frame (s : State) : s.haltResponse.frame = s.frame := by
  simp [haltResponse, respond]

@[simp] theorem stopFloodResponse_frame (s : State) : s.stopFloodResponse.frame = s.frame := by
  simp [stopFloodResponse, frame]

@[simp] theorem enterTripped_frame (s : State) : s.enterTripped.frame = s.frame := by
  simp [frame]

@[simp] theorem tripProgress_frame (s : State) : s.tripProgress.frame = s.frame := by
  rcases s.tripProgress_cases with e | ⟨_, _, e⟩ <;> rw [e]
  exact s.enterTripped_frame

@[simp] theorem furtherTrip_frame (s : State) (src : Source) : (s.furtherTrip src).frame = s.frame := by
  rcases s.furtherTrip_cases src with e | ⟨_, e | e⟩ | ⟨_, e⟩ <;> rw [e]
  all_goals simp

@[simp] theorem latchingTrip_frame (s : State) (src : Source) (ch : Option Channel) :
    (s.latchingTrip src ch).frame = s.frame := by
  obtain ⟨u, st, ordered, e⟩ := s.latchingTrip_ordered src ch
  have orders : u.frame = s.frame := by
    simp [frame, ordered.pending, ordered.cfg, ordered.inputs, ordered.store]
  rcases e with ⟨_, e⟩ | e <;> rw [e]
  · exact orders
  · exact u.enterTripped_frame.trans orders

@[simp] theorem raise_frame (s : State) (src : Source) (ch : Option Channel) :
    (s.raise src ch).frame = s.frame := by
  unfold raise
  split
  · rfl
  · rfl
  · split
    · exact s.furtherTrip_frame src
    · exact s.latchingTrip_frame src ch

@[simp] theorem raiseIf_frame (s : State) (was now : Bool) (src : Source) (ch : Option Channel) :
    (s.raiseIf was now src ch).frame = s.frame := by
  unfold raiseIf
  split
  · exact s.raise_frame src ch
  · rfl

@[simp] theorem raisePresent_frame (s : State) (test : Source → Bool) :
    (s.raisePresent test).frame = s.frame := by
  unfold raisePresent
  generalize (Source.all.filter test).flatMap s.raisesOf = raises
  induction raises generalizing s with
  | nil => rfl
  | cons p ps ih => exact (ih _).trans (s.raise_frame p.1 p.2)

@[simp] theorem onTrails_frame (s : State) (f : Quench → Quench) : (s.onTrails f).frame = s.frame :=
  raiseIf_frame _ _ _ _ _

/-! #### Activations and ends of steps and scans (R25, R33, R35, R43 to R46) -/

@[simp] theorem exitPrestart_frame (s : State) (c : EndCause) : (s.exitPrestart c).frame = s.frame := by
  simp [frame]

@[simp] theorem runoutComplete_frame (s : State) : s.runoutComplete.frame = s.frame := by
  simp [frame]

@[simp] theorem runoutMotion_frame (s : State) (returning : Bool) :
    (s.runoutMotion returning).frame = s.frame := by
  by_cases hs : s.seq.state = .runout
  · rcases s.runoutMotion_cases returning hs with ⟨e, _⟩ | ⟨e, _⟩ | ⟨e, _⟩ <;> rw [e]
    · exact runoutComplete_frame _
    · rfl
    · rfl
  · rw [s.runoutMotion_other _ hs]

@[simp] theorem runoutEntry_frame (s : State) (c : EndCause) (stop : Option Int) :
    (s.runoutEntry c stop).frame = s.frame := by
  rw [runoutEntry_eq, runoutMotion_frame, onTrails_frame]
  rfl

@[simp] theorem vacantCheck_frame (s : State) : s.vacantCheck.frame = s.frame := by
  unfold vacantCheck
  split_ifs <;> simp

@[simp] theorem handQuench_frame (s : State) (a : Admitted) : (s.handQuench a).frame = s.frame := by
  unfold handQuench
  split
  · exact s.onTrails_frame _
  · exact s.onTrails_frame _
  · rfl
  · rfl

@[simp] theorem activate_frame (s : State) (a : Admitted) : (s.activate a).frame = s.frame :=
  (handQuench_frame _ a).trans (by simp [frame])

@[simp] theorem proceed_frame (s : State) : s.proceed.frame = s.frame := by
  unfold proceed
  split
  · split
    · split <;> rfl
    · exact s.activate_frame _
  · rfl

@[simp] theorem clearActive_frame (s : State) (a : Admitted) : (s.clearActive a).frame = s.frame := by
  unfold clearActive
  dsimp only
  split <;> rfl

@[simp] theorem stepEnd_frame (s : State) : s.stepEnd.frame = s.frame := by
  unfold stepEnd
  split
  · rfl
  · dsimp only
    split_ifs <;> simp

@[simp] theorem sourceHead_frame (s : State) : s.sourceHead.frame = s.frame := by
  unfold sourceHead resumeLoader
  dsimp only
  repeat' split
  all_goals rfl

/-! #### A position sample (R48) -/

theorem Ordered.frame {s u : State} (h : s.Ordered u) : u.frame = s.frame := by
  obtain ⟨x, rfl, _⟩ := h
  rfl

@[simp] theorem testLimits_frame (s : State) (r : Reading) : (s.testLimits r).frame = s.frame := by
  unfold testLimits testSoft testLow testHigh testEncoder testFollow
  simp

@[simp] theorem modeTested_frame (s : State) (r : Reading) : (s.modeTested r).frame = s.frame := by
  have tested := ((s.seekSample_ordered r.refSwitch).trans (arrivalSample_ordered _)).frame
  unfold modeTested scanSample
  split
  · exact (stepEnd_frame _).trans tested
  · exact (brakeSample_ordered _).frame.trans tested

@[simp] theorem positionSample_frame (s : State) (r : Reading) : (s.positionSample r).frame = s.frame := by
  obtain ⟨_, _, own, _⟩ := s.sampledPart_spec r
  have same : (s.sampledPart r).frame = s.frame := by rw [own]; rfl
  rw [positionSample_eq]
  simp [same]

/-! #### Timers, inputs, conversions and the part's own steps -/

@[simp] theorem stepTick_frame (s : State) : s.stepTick.frame = s.frame := by
  unfold stepTick
  dsimp only
  split
  · rfl
  · split <;> simp

@[simp] theorem prestartTimeout_frame (s : State) : s.prestartTimeout.frame = s.frame := by
  unfold prestartTimeout
  split <;> simp

/-- A lost flow is its raise (R104, R105, R107). -/
@[simp] theorem flowLost_frame (s : State) (k : Circuit) : (s.flowLost k).frame = s.frame := by
  obtain ⟨z, e, _⟩ := s.flowLost_eq k
  rw [e, raise_frame]
  rfl

@[simp] theorem provingExpiry_frame (s : State) (k : Circuit) : (s.provingExpiry k).frame = s.frame := by
  unfold provingExpiry
  dsimp only
  split <;> simp

@[simp] theorem dropoutExpiry_frame (s : State) (k : Circuit) : (s.dropoutExpiry k).frame = s.frame := by
  unfold dropoutExpiry
  dsimp only
  split <;> simp

@[simp] theorem floodExpired_frame (s : State) : s.floodExpired.frame = s.frame := by
  unfold floodExpired
  dsimp only
  split_ifs <;> simp

@[simp] theorem coilWaterExpired_frame (s : State) : s.coilWaterExpired.frame = s.frame := by
  unfold coilWaterExpired
  split <;> simp

@[simp] theorem lowCountReached_frame (s : State) : s.lowCountReached.frame = s.frame := by
  unfold lowCountReached
  split <;> simp

/-- The owners' tests of a published value (R86, R87, R104, R108, R132, R133). -/
@[simp] theorem publish_frame (s : State) (c : Channel) (v : Int) : (s.publish c v).frame = s.frame := by
  cases c
  case coilI | pyro | qTemp => exact raiseIf_frame _ _ _ _ _
  case qPress =>
    show (s.takePressure v).frame = _
    unfold takePressure
    dsimp only
    split
    · rfl
    · exact vacantCheck_frame _
  all_goals rfl

@[simp] theorem burstResult_frame (s : State) (b : Burst) : (s.burstResult b).frame = s.frame := by
  cases hk : b.kind with
  | sample =>
    rw [s.burstResult_sample b hk, raiseIf_frame]
    unfold toldSample
    dsimp only
    split
    · exact publish_frame _ _ _
    · rfl
  | calibration =>
    rw [s.burstResult_calibration b hk]
    rfl

@[simp] theorem conversionComplete_frame (s : State) (code : Nat) :
    (s.conversionComplete code).frame = s.frame := by
  unfold conversionComplete
  split
  · rfl
  · dsimp only
    split
    · exact burstResult_frame _ _
    · rfl

@[simp] theorem stoppingComplete_frame (s : State) : s.stoppingComplete.frame = s.frame := by
  unfold stoppingComplete homingEnd beginReturn trippingStopped
  dsimp only
  repeat' split
  all_goals simp

@[simp] theorem arrived_frame (s : State) : s.arrived.frame = s.frame := by
  unfold arrived
  split
  · split <;> rfl
  · rfl

@[simp] theorem returned_frame (s : State) : s.returned.frame = s.frame := by
  unfold returned
  split
  · split <;> simp
  · rfl

@[simp] theorem turnStoppedActivation_frame (s : State) : s.turnStoppedActivation.frame = s.frame := by
  unfold turnStoppedActivation
  split
  · split <;> simp
  · rfl

@[simp] theorem enterRunning_frame (s : State) : s.enterRunning.frame = s.frame := by
  unfold enterRunning
  split <;> simp

@[simp] theorem flowFall_frame (s : State) : s.flowFall.frame = s.frame := by
  unfold flowFall
  split <;> rfl

@[simp] theorem admission_frame (s : State) : s.admission.frame = s.frame := by
  unfold admission programError
  dsimp only
  split
  · split
    · split_ifs <;> simp
    · rfl
  · rfl

@[simp] theorem loaderAppend_frame (s : State) : s.loaderAppend.frame = s.frame := by
  unfold loaderAppend
  split
  · split
    · split <;> simp
    · rfl
  · rfl

/-! #### Requests that write neither configuration nor pages -/

@[simp] theorem stopEffect_frame (s : State) : s.stopEffect.frame = s.frame := by
  unfold stopEffect
  split
  · exact s.exitPrestart_frame _
  · exact s.runoutEntry_frame _ _
  all_goals rfl

@[simp] theorem acceptStart_frame (s : State) (p : StartPlan) : (s.acceptStart p).frame = s.frame := by
  rw [acceptStart_eq]
  rfl

@[simp] theorem chooseSpin_frame (s : State) (step : ScanStep) : (s.chooseSpin step).frame = s.frame := by
  unfold chooseSpin
  split
  · split <;> rfl
  · rfl

@[simp] theorem acceptStep_frame (s : State) (step : ScanStep) : (s.acceptStep step).frame = s.frame := by
  have joins : (s.joined step).frame = s.frame := rfl
  rw [acceptStep_eq]
  simp [joins]

@[simp] theorem serveStep_frame (s : State) (tag : Byte) (r : StepRecord) :
    (s.serveStep tag r).frame = s.frame := by
  unfold serveStep
  dsimp only
  split
  · split <;> simp
  · rfl

@[simp] theorem serveTrim_frame (s : State) (tag : Byte) (t sp m : Nat) :
    (s.serveTrim tag t sp m).frame = s.frame := by
  unfold serveTrim trimEffect retrim
  dsimp only
  repeat' split
  all_goals rfl

@[simp] theorem serveRestart_frame (s : State) (tag : Byte) : (s.serveRestart tag).frame = s.frame := by
  unfold serveRestart raiseTrips
  dsimp only
  split
  · exact raisePresent_frame _ _
  · rfl

end State

end Sys2Proof.Machine

namespace Sys2Proof.Machine

/-! ### The shape of the store (R170) -/

namespace StoreInv

/-- The shape reads no in-use mark. -/
theorem of_contents {st t : Store} (h : StoreInv st) (e : t.contents = st.contents) : StoreInv t := by
  obtain ⟨pages, zoneMarks, stepMarks, inUse⟩ := t
  obtain ⟨pages', zoneMarks', stepMarks', inUse'⟩ := st
  simp only [Store.contents, Prod.mk.injEq] at e
  obtain ⟨rfl, rfl, rfl⟩ := e
  exact h

/-- The page that owns a page is the first of its profile. -/
theorem owner_first {st : Store} (h : StoreInv st) {i p : Nat} (hi : i < 16)
    (ho : (st.page i).owner = some p) : p < 16 ∧ (st.page p).owner = some p := by
  obtain ⟨_, _, _, _, _, _, _, firsts, _⟩ := h
  simpa [ho] using firsts i hi

/-- The pages of a profile are those from its first page on, as many as its header says. -/
theorem owner_iff {st : Store} (h : StoreInv st) {page i : Nat} (hp : page < 16)
    (ho : (st.page page).owner = some page) (hi : i < 16) :
    (st.page i).owner = some page ↔ page ≤ i ∧ i < page + (st.header page).size := by
  obtain ⟨_, _, _, _, _, owned, whole, _⟩ := h
  refine ⟨fun hio => ?_, fun ⟨low, high⟩ => whole page hp ho i hi low high⟩
  obtain ⟨_, _, low, high, _⟩ := owned i hi page hp hio
  exact ⟨low, high⟩

end StoreInv

/-- A page lies in the block of `size` pages from `page` on. -/
abbrev InBlock (page size i : Nat) : Prop := page ≤ i ∧ i < page + size

/-- The second store is the first with one aligned block of its pages recast: the block held one profile or none, and now
holds one or none, of one state (R170, R172, R173, R176, R177, R179). -/
structure Store.Recast (st t : Store) (page size : Nat) (owner : Option Nat) (state : PageState) : Prop where
  length : t.pages.length = 16
  zoneMarks : t.zoneMarks.length = 16
  stepMarks : t.stepMarks.length = 320
  first : page < 16
  sizes : [1, 2, 4, 8].contains size = true
  aligned : page % size = 0
  outside : ∀ i < 16, ¬InBlock page size i → t.page i = st.page i
  apart : ∀ i < 16, ¬InBlock page size i → (st.page i).owner ≠ some page
  before : ∀ i < 16, InBlock page size i → (st.page i).owner = none ∨ (st.page i).owner = some page
  places : ∀ i < 16, InBlock page size i → (t.page i).slots.length = 40 ∧ (t.page i).windows.length = 16
  behind : ∀ i < 16, InBlock page size i → (t.page i).owner = owner ∧ (t.page i).state = state
  holds : (owner = none ∧ state = .free) ∨
    (owner = some page ∧ state ≠ .free ∧ (t.header page).size = size ∧
      (state = .opened → ∀ i < 16, ¬InBlock page size i → (st.page i).state ≠ .opened))

namespace Store.Recast

variable {st t : Store} {page size : Nat} {owner : Option Nat} {state : PageState}

theorem first_inBlock (r : Recast st t page size owner state) : InBlock page size page := by
  have sizes := r.sizes
  simp only [List.contains_eq_mem, List.mem_cons, List.not_mem_nil, or_false, decide_eq_true_eq] at sizes
  omega

/-- A page outside the block belongs to a profile outside it. -/
theorem owner_outside (r : Recast st t page size owner state) (h : StoreInv st) {i p : Nat} (hi : i < 16)
    (ho : ¬InBlock page size i) (hp : (st.page i).owner = some p) : ¬InBlock page size p := by
  intro hin
  obtain ⟨hp16, hpp⟩ := h.owner_first hi hp
  rcases r.before p hp16 hin with e | e <;> rw [hpp] at e
  · cases e
  · exact r.apart i hi ho (hp.trans e)

/-- In the block a page is owned by the block's first page alone. -/
theorem owner_inside (r : Recast st t page size owner state) {i p : Nat} (hi : i < 16)
    (hin : InBlock page size i) (hp : (t.page i).owner = some p) :
    p = page ∧ owner = some page ∧ state ≠ .free ∧ (t.header page).size = size := by
  have ho := (r.behind i hi hin).1.symm.trans hp
  rcases r.holds with ⟨e, _⟩ | ⟨e, hs, hsize, _⟩ <;> rw [ho] at e
  · cases e
  · cases e
    exact ⟨rfl, ho, hs, hsize⟩

theorem free_iff (r : Recast st t page size owner state) : owner = none ↔ state = .free := by
  rcases r.holds with ⟨ho, hs⟩ | ⟨ho, hs, _⟩ <;> simp [ho, hs]

/-- A block that is OPEN stands beside no OPEN page. -/
theorem opened_alone (r : Recast st t page size owner state) {i j : Nat} (hi : i < 16) (hj : j < 16)
    (hin : InBlock page size i) (hout : ¬InBlock page size j) (opened : (t.page i).state = .opened) :
    (t.page j).state ≠ .opened := by
  rw [(r.behind i hi hin).2] at opened
  rw [r.outside j hj hout]
  rcases r.holds with ⟨_, hs⟩ | ⟨_, _, _, others⟩
  · rw [hs] at opened
    cases opened
  · exact others opened j hj hout

/-- Recasting a block keeps the shape of the store (R170). -/
theorem storeInv (r : Recast st t page size owner state) (h : StoreInv st) : StoreInv t := by
  have first := r.first_inBlock
  have owner_first := fun {i p} => h.owner_first (i := i) (p := p)
  obtain ⟨_, places, _, _, free, owned, whole, _, single⟩ := id h
  have header : ∀ p < 16, ¬InBlock page size p → t.header p = st.header p := fun p hp hout => by
    unfold Store.header
    rw [r.outside p hp hout]
  refine ⟨r.length, fun i hi => ?_, r.zoneMarks, r.stepMarks, fun i hi => ?_, fun i hi p hp ho => ?_,
    fun p hp ho k hk low high => ?_, fun i hi => ?_, fun i hi j hj oi oj => ?_⟩
  · by_cases hin : InBlock page size i
    · exact r.places i hi hin
    · rw [r.outside i hi hin]
      exact places i hi
  · by_cases hin : InBlock page size i
    · obtain ⟨ho, hs⟩ := r.behind i hi hin
      rw [ho, hs, r.free_iff]
    · rw [r.outside i hi hin]
      exact free i hi
  · by_cases hin : InBlock page size i
    · obtain ⟨rfl, _, _, hsize⟩ := r.owner_inside hi hin ho
      rw [hsize, (r.behind i hi hin).2, (r.behind p hp first).2]
      exact ⟨r.sizes, r.aligned, hin.1, hin.2, rfl⟩
    · rw [r.outside i hi hin] at ho ⊢
      have hout := r.owner_outside h hi hin ho
      rw [header p hp hout, r.outside p hp hout]
      exact owned i hi p hp ho
  · by_cases hin : InBlock page size p
    · obtain ⟨rfl, ho', _, hsize⟩ := r.owner_inside hp hin ho
      rw [hsize] at high
      rw [(r.behind k hk ⟨low, high⟩).1, ho']
    · rw [r.outside p hp hin] at ho
      rw [header p hp hin] at high
      have hk' := whole p hp ho k hk low high
      have hout : ¬InBlock page size k := fun hkin => by
        rcases r.before k hk hkin with e | e <;> rw [hk'] at e <;> cases e
        exact hin first
      rw [r.outside k hk hout, hk']
  · by_cases hin : InBlock page size i
    · rw [(r.behind i hi hin).1]
      rcases r.holds with ⟨ho, _⟩ | ⟨ho, _⟩
      · exact .inl ho
      · rw [ho]
        exact .inr ⟨r.first, (r.behind page r.first first).1.trans ho⟩
    · rw [r.outside i hi hin]
      cases ho : (st.page i).owner with
      | none => exact .inl rfl
      | some p =>
        obtain ⟨hp, hpp⟩ := owner_first hi ho
        exact .inr ⟨hp, by rw [Option.getD_some, r.outside p hp (r.owner_outside h hi hin ho), hpp]⟩
  · by_cases hin : InBlock page size i <;> by_cases hjn : InBlock page size j
    · rw [(r.behind i hi hin).1, (r.behind j hj hjn).1]
    · exact absurd oj (r.opened_alone hi hj hin hjn oi)
    · exact absurd oi (r.opened_alone hj hi hjn hin oj)
    · rw [r.outside i hi hin] at oi ⊢
      rw [r.outside j hj hjn] at oj ⊢
      exact single i hi j hj oi oj

end Store.Recast

/-! ### What the store's requests do to the shape -/

/-- Every page that a profile's first page owns, changed. -/
def Store.onProfile (st : Store) (page : Nat) (f : Page → Page) : Store :=
  st.mapPages fun _ pg => if pg.owner = some page then f pg else pg

theorem Store.onProfile_page (st : Store) (page : Nat) (f : Page → Page) {i : Nat}
    (hi : i < st.pages.length) :
    (st.onProfile page f).page i = if (st.page i).owner = some page then f (st.page i) else st.page i :=
  st.page_mapPages _ i hi

namespace StoreInv

variable {st : Store} {page : Nat}

theorem clearMarks (h : StoreInv st) : StoreInv st.clearMarks := by
  obtain ⟨length, places, _, _, rest⟩ := h
  exact ⟨length, places, List.length_replicate, List.length_replicate, rest⟩

/-- A profile's pages take one owner and one state, FREE without an owner or WRITTEN (R176, R177, R179). -/
theorem onProfile (h : StoreInv st) (hp : page < 16) (ho : (st.page page).owner = some page)
    {f : Page → Page} {owner : Option Nat} {state : PageState}
    (behind : ∀ pg, pg.owner = some page → (f pg).owner = owner ∧ (f pg).state = state)
    (places : ∀ pg, pg.slots.length = 40 ∧ pg.windows.length = 16 →
      (f pg).slots.length = 40 ∧ (f pg).windows.length = 16)
    (holds : (owner = none ∧ state = .free) ∨
      (owner = some page ∧ state = .written ∧ ∀ pg, (f pg).header = pg.header)) :
    StoreInv (st.onProfile page f) := by
  obtain ⟨length, lengths, zoneMarks, stepMarks, _, owned, _⟩ := id h
  obtain ⟨sizes, aligned, _⟩ := owned page hp page hp ho
  have owned_iff : ∀ {i}, i < 16 → ((st.page i).owner = some page ↔
    InBlock page (st.header page).size i) := fun hi => h.owner_iff hp ho hi
  have inside : ∀ i < 16, InBlock page (st.header page).size i →
      (st.onProfile page f).page i = f (st.page i) := fun i hi hin => by
    rw [st.onProfile_page page f (length ▸ hi), if_pos ((owned_iff hi).2 hin)]
  have recast : Store.Recast st (st.onProfile page f) page (st.header page).size owner state := by
    refine ⟨?_, zoneMarks, stepMarks, hp, sizes, aligned, fun i hi hout => ?_,
      fun i hi hout e => hout ((owned_iff hi).1 e), fun i hi hin => .inr ((owned_iff hi).2 hin),
      fun i hi hin => ?_, fun i hi hin => ?_, ?_⟩
    · exact (st.mapPages_length _).trans length
    · rw [st.onProfile_page page f (length ▸ hi), if_neg fun e => hout ((owned_iff hi).1 e)]
    · rw [inside i hi hin]
      exact places _ (lengths i hi)
    · rw [inside i hi hin]
      exact behind _ ((owned_iff hi).2 hin)
    · rcases holds with free | ⟨howner, rfl, header⟩
      · exact .inl free
      · refine .inr ⟨howner, nofun, ?_, nofun⟩
        unfold Store.header
        rw [inside page hp ((owned_iff hp).1 ho), header]
  exact recast.storeInv h

theorem freeProfile (h : StoreInv st) (hp : page < 16) (ho : (st.page page).owner = some page) :
    StoreInv (st.freeProfile page) :=
  h.onProfile hp ho (f := fun _ => .free) (fun _ _ => ⟨rfl, rfl⟩) (fun _ _ => ⟨rfl, rfl⟩) (.inl ⟨rfl, rfl⟩)

/-- PROFILE-CLOSE (R176, R177). -/
theorem closeProfile (h : StoreInv st) (hp : page < 16) (ho : (st.page page).owner = some page) :
    StoreInv (st.closeProfile page) := by
  unfold Store.closeProfile
  split
  · exact (h.onProfile hp ho (f := ({ · with state := .written })) (fun _ e => ⟨e, rfl⟩) (fun _ => id)
      (.inr ⟨rfl, rfl, fun _ => rfl⟩)).clearMarks
  · exact (h.freeProfile hp ho).clearMarks

/-- PROFILE-ERASE (R179). -/
theorem eraseProfile (h : StoreInv st) (hp : page < 16) (ho : (st.page page).owner = some page) :
    StoreInv (st.eraseProfile page) := by
  unfold Store.eraseProfile
  split
  · exact (h.freeProfile hp ho).clearMarks
  · exact h.freeProfile hp ho

end StoreInv

end Sys2Proof.Machine

namespace Sys2Proof.Machine

/-! ### PROFILE-OPEN and PROFILE-DATA keep the shape (R172 to R175) -/

/-- The first check of PROFILE-OPEN: page, size, zones and steps in their ranges (R172). -/
abbrev OpenLegal (page size zones steps : Nat) : Prop :=
  page < 16 ∧ size ∈ [1, 2, 4, 8] ∧ 1 ≤ zones ∧ zones ≤ 16 ∧ steps ≠ 0

/-- An aligned block of a legal size lies in the store (R170). -/
theorem block_le {page size : Nat} (hp : page < 16) (hs : size ∈ [1, 2, 4, 8]) (ha : page % size = 0) :
    0 < size ∧ page + size ≤ 16 := by
  simp only [List.mem_cons, List.not_mem_nil, or_false] at hs
  rcases hs with rfl | rfl | rfl | rfl <;> omega

namespace Store

/-- Some page is OPEN (R172). -/
abbrev HoldsOpen (st : Store) : Prop := ∃ i < 16, (st.page i).state = .opened

/-- Some page of a block is not FREE (R172). -/
abbrev Occupies (st : Store) (page size : Nat) : Prop :=
  ∃ i < 16, page ≤ i ∧ i < page + size ∧ (st.page i).state ≠ .free

theorem any_opened_iff {st : Store} (length : st.pages.length = 16) :
    st.pages.any (·.state == .opened) = true ↔ st.HoldsOpen := by
  simp only [List.any_eq_true, List.mem_iff_getElem, beq_iff_eq, length]
  constructor
  · rintro ⟨pg, ⟨i, hi, rfl⟩, opened⟩
    exact ⟨i, hi, by simpa [Store.page, length, hi] using opened⟩
  · rintro ⟨i, hi, opened⟩
    exact ⟨_, ⟨i, hi, rfl⟩, by simpa [Store.page, length, hi] using opened⟩

theorem any_pageRange_iff {st : Store} {page size : Nat} (fits : page + size ≤ 16) :
    ((pageRange page size).any fun i => (st.page i).state != .free) = true ↔ st.Occupies page size := by
  simp only [pageRange, List.any_eq_true, List.mem_map, List.mem_range, bne_iff_ne]
  constructor
  · rintro ⟨_, ⟨k, hk, rfl⟩, taken⟩
    exact ⟨page + k, by omega, by omega, by omega, taken⟩
  · rintro ⟨i, _, low, high, taken⟩
    exact ⟨i, ⟨i - page, by omega, by omega⟩, taken⟩

/-- The five checks of PROFILE-OPEN in their order (R172). -/
theorem openResult_eq {st : Store} (length : st.pages.length = 16) (page size zones steps : Nat) :
    st.openResult page size zones steps =
      if ¬OpenLegal page size zones steps then .invalid
      else if page % size ≠ 0 then .align
      else if 40 * size < steps then .size
      else if st.HoldsOpen then .openProfile
      else if st.Occupies page size then .occupied
      else .ok := by
  unfold openResult
  refine (if_congr (Q := ¬OpenLegal page size zones steps) ?_ rfl rfl).trans ?_
  · simp [OpenLegal, pageCount, zonePlaces]
    omega
  · by_cases legal : OpenLegal page size zones steps
    · obtain ⟨hp, hs, _⟩ := id legal
      rw [if_neg (not_not.2 legal), if_neg (not_not.2 legal)]
      by_cases aligned : page % size = 0
      · have occupied := st.any_pageRange_iff (block_le hp hs aligned).2
        rw [if_neg (not_not.2 aligned), if_neg (not_not.2 aligned)]
        exact if_congr Iff.rfl rfl (if_congr (st.any_opened_iff length) rfl (if_congr occupied rfl rfl))
      · rw [if_pos aligned, if_pos aligned]
    · rw [if_pos legal, if_pos legal]

/-- A page behind an accepted PROFILE-OPEN (R173). -/
theorem openProfile_page {st : Store} (page size zones steps : Nat) (name : Tag8) {i : Nat}
    (hi : i < st.pages.length) :
    (st.openProfile page size zones steps name).page i =
      if page ≤ i ∧ i < page + size then
        { state := .opened, owner := some page, slots := List.replicate 40 none,
          header := if i = page then some ⟨name, size, zones, steps⟩ else none,
          windows := List.replicate 16 none }
      else st.page i :=
  st.page_mapPages _ i hi

end Store

namespace StoreInv

variable {st : Store}

/-- PROFILE-OPEN takes a block of FREE pages (R172, R173). -/
theorem openProfile (h : StoreInv st) {page size zones steps : Nat} (name : Tag8)
    (ok : st.openResult page size zones steps = .ok) :
    StoreInv (st.openProfile page size zones steps name) := by
  obtain ⟨length, _, _, _, free, _⟩ := id h
  rw [Store.openResult_eq length] at ok
  split_ifs at ok with legal aligned _ single vacant
  obtain ⟨hp, hs, _⟩ := legal
  obtain ⟨pos, fits⟩ := block_le hp hs (not_not.1 aligned)
  have taken : ∀ i < 16, InBlock page size i → (st.page i).owner = none := fun i hi hin =>
    (free i hi).2 (by_contra fun e => vacant ⟨i, hi, hin.1, hin.2, e⟩)
  have opened := fun {i} (hi : i < 16) =>
    st.openProfile_page page size zones steps name (i := i) (length ▸ hi)
  have recast : Store.Recast st (st.openProfile page size zones steps name) page size (some page) .opened := by
    refine ⟨(st.mapPages_length _).trans length, List.length_replicate, List.length_replicate, hp, ?_,
      not_not.1 aligned, fun i hi hout => ?_, fun i hi hout e => ?_, fun i hi hin => .inl (taken i hi hin),
      fun i hi hin => ?_, fun i hi hin => ?_, .inr ⟨rfl, nofun, ?_, fun _ i hi _ e => single ⟨i, hi, e⟩⟩⟩
    · simpa using hs
    · rw [opened hi, if_neg hout]
    · have := taken page hp ⟨le_rfl, by omega⟩
      rw [(h.owner_first hi e).2] at this
      cases this
    · rw [opened hi, if_pos hin]
      exact ⟨List.length_replicate, List.length_replicate⟩
    · rw [opened hi, if_pos hin]
      exact ⟨rfl, rfl⟩
    · unfold Store.header
      rw [opened hp, if_pos ⟨le_rfl, by omega⟩, if_pos rfl]
      rfl
  exact recast.storeInv h

/-- The shape reads of a page its state, owner, header and numbers of places. -/
theorem of_shape {t : Store} (h : StoreInv st) (length : t.pages.length = 16)
    (zoneMarks : t.zoneMarks.length = 16) (stepMarks : t.stepMarks.length = 320)
    (same : ∀ i < 16, (t.page i).shape = (st.page i).shape) : StoreInv t := by
  have owner_first := fun {i p} => h.owner_first (i := i) (p := p)
  obtain ⟨_, places, _, _, free, owned, whole, _, single⟩ := h
  simp only [Page.shape, Prod.mk.injEq] at same
  have state := fun i hi => (same i hi).1
  have owner := fun i hi => (same i hi).2.1
  have header : ∀ p < 16, t.header p = st.header p := fun p hp => by
    unfold Store.header
    rw [(same p hp).2.2.1]
  refine ⟨length, fun i hi => ?_, zoneMarks, stepMarks, fun i hi => ?_, fun i hi p hp ho => ?_,
    fun p hp ho k hk => ?_, fun i hi => ?_, fun i hi j hj => ?_⟩
  · obtain ⟨_, _, _, slots, windows⟩ := same i hi
    rw [slots, windows]
    exact places i hi
  · rw [owner i hi, state i hi]
    exact free i hi
  · rw [owner i hi] at ho
    rw [header p hp, state i hi, state p hp]
    exact owned i hi p hp ho
  · rw [owner p hp] at ho
    rw [header p hp, owner k hk]
    exact whole p hp ho k hk
  · rw [owner i hi]
    cases ho : (st.page i).owner with
    | none => exact .inl rfl
    | some p =>
      obtain ⟨hp, hpp⟩ := owner_first hi ho
      exact .inr ⟨hp, (owner p hp).trans hpp⟩
  · rw [owner i hi, owner j hj, state i hi, state j hj]
    exact single i hi j hj

/-- PROFILE-DATA writes slots, windows and marks in place (R175). -/
theorem writeRecords (h : StoreInv st) (page : Nat) (rs : List DataRecord) :
    StoreInv (st.writeRecords page rs) := by
  obtain ⟨length, _, zoneMarks, stepMarks, _⟩ := id h
  refine h.of_shape (st.writeRecords_length page rs length) ?_ ?_ fun i hi =>
    Store.writeRecords_page Page.shape page i hi rs (fun r pg _ => DataRecord.writePage_shape page r i pg) st length
  · refine (Store.writeRecords_keep (·.zoneMarks.length) page rs (fun st r _ _ => ?_) st length).trans zoneMarks
    cases r
    · exact List.length_set
    · rfl
  · refine (Store.writeRecords_keep (·.stepMarks.length) page rs (fun st r _ _ => ?_) st length).trans stepMarks
    cases r
    · rfl
    · exact List.length_set

end StoreInv

/-! ### The requests of the Profile Store (R172 to R179) -/

namespace State

variable {s : State}

/-- A PROFILE-OPEN that fails a check is only answered (R172). -/
theorem serveOpen_refused {page size zones steps : Nat} {c : ResultCode} (tag : Byte) (name : Tag8)
    (ha : s.store.openResult page size zones steps = c) (hn : c ≠ .ok) :
    s.serveOpen tag page size zones steps name = s.replied 0x90#8 tag c [] := by
  unfold State.serveOpen
  rw [ha]
  exact if_neg hn

/-- One that passes them all takes its pages (R173). -/
theorem serveOpen_accepted {page size zones steps : Nat} (tag : Byte) (name : Tag8)
    (ha : s.store.openResult page size zones steps = .ok) :
    s.serveOpen tag page size zones steps name =
      (s.replied 0x90#8 tag .ok []).onStore (·.openProfile page size zones steps name) := by
  unfold State.serveOpen
  rw [ha]
  exact if_pos rfl

end State

/-- Settles O36: the checks decide the answer in their order, and the block of an accepted request is written whole. -/
theorem profileOpenTakesPages : Obligations.ProfileOpenTakesPages := by
  intro tag s page size zones steps name taken inv c one four five
  have length := inv.1
  have result := Store.openResult_eq length page size zones steps
  have refuse : ∀ {code}, s.store.openResult page size zones steps = code → code ≠ .ok →
      exec c s = .next (s.replied 0x90#8 tag code []) := fun ha hn => by
    rw [exec_profileOpen_taken page size zones steps name taken, State.serveOpen_refused tag name ha hn]
  have legal : one → ¬¬OpenLegal page size zones steps := not_not.2
  have aligns : page % size = 0 → ¬page % size ≠ 0 := not_not.2
  have fits : steps ≤ 40 * size → ¬40 * size < steps := Nat.not_lt.2
  refine ⟨fun h1 => refuse ?_ nofun, fun h1 h2 => refuse ?_ nofun, fun h1 h2 h3 => refuse ?_ nofun,
    fun h1 h2 h3 h4 => refuse ?_ nofun, fun h1 h2 h3 h4 h5 => refuse ?_ nofun, fun h1 h2 h3 h4 h5 => ?_⟩
  · rw [result, if_pos h1]
  · rw [result, if_neg (legal h1), if_pos h2]
  · rw [result, if_neg (legal h1), if_neg (aligns h2), if_pos h3]
  · rw [result, if_neg (legal h1), if_neg (aligns h2), if_neg (fits h3), if_pos h4]
  · rw [result, if_neg (legal h1), if_neg (aligns h2), if_neg (fits h3), if_neg h4, if_pos h5]
  · have ok : s.store.openResult page size zones steps = .ok := by
      rw [result, if_neg (legal h1), if_neg (aligns h2), if_neg (fits h3), if_neg h4, if_neg h5]
    refine ⟨_, (exec_profileOpen_taken page size zones steps name taken).trans
      (congrArg _ (State.serveOpen_accepted tag name ok)), fun i hi => ?_, rfl, rfl, rfl, rfl,
      by simp [Keeps, State.replied]⟩
    exact s.store.openProfile_page page size zones steps name (length ▸ hi)

end Sys2Proof.Machine

namespace Sys2Proof.Machine

/-! ### The checks of PROFILE-CLOSE (R176) -/

theorem firstUnmarked_none {marks : List Bool} {n : Nat} (h : ∀ i < n, marks.getD i false = true) :
    firstUnmarked marks n = none := by
  unfold firstUnmarked
  simpa [List.find?_range_eq_none] using h

theorem firstUnmarked_some {marks : List Bool} {n k : Nat} (hk : k < n) (unmarked : marks.getD k false = false)
    (below : ∀ i < k, marks.getD i false = true) : firstUnmarked marks n = some k := by
  unfold firstUnmarked
  rw [List.find?_range_eq_some]
  exact ⟨by rw [unmarked]; rfl, List.mem_range.2 hk, fun i hi => by rw [below i hi]; rfl⟩

/-- A step index fails the third check: its step closes a segment, or names a zone that the profile has not (R176). -/
def Store.BadStep (st : Store) (page : Nat) (h : Header) (i : Nat) : Prop :=
  ∃ x, st.stepAt page i = some x ∧ (x.closes = true ∨ ∃ z, x.zone? = some z ∧ h.zones ≤ z)

namespace Store

variable {st : Store} {page : Nat}

/-- The third check looks for the lowest bad step (R176). -/
theorem firstBad_eq (st : Store) (page : Nat) (h : Header) [DecidablePred (st.BadStep page h)] :
    st.firstBad page h = (List.range h.steps).find? fun i => decide (st.BadStep page h i) := by
  unfold firstBad
  congr 1
  funext i
  rw [Bool.eq_iff_iff, decide_eq_true_iff]
  unfold BadStep
  cases st.stepAt page i with
  | none => simp
  | some x => cases hz : x.zone? <;> simp [hz]

theorem firstBad_none {h : Header} (good : ∀ i < h.steps, ¬st.BadStep page h i) :
    st.firstBad page h = none := by
  classical
  rw [firstBad_eq, List.find?_range_eq_none]
  simpa using good

theorem firstBad_some {h : Header} {k : Nat} (hk : k < h.steps) (bad : st.BadStep page h k)
    (below : ∀ i < k, ¬st.BadStep page h i) : st.firstBad page h = some k := by
  classical
  rw [firstBad_eq, List.find?_range_eq_some]
  exact ⟨decide_eq_true bad, List.mem_range.2 hk, by simpa using below⟩

/-- Every zone of the header has its written mark (R176). -/
def ZonesMarked (st : Store) (page : Nat) : Prop :=
  ∀ i < (st.header page).zones, st.zoneMarks.getD i false = true

/-- Every step of the header has its written mark (R176). -/
def StepsMarked (st : Store) (page : Nat) : Prop :=
  ∀ i < (st.header page).steps, st.stepMarks.getD i false = true

/-! Each of the three checks is looked at when those before it pass (R176). -/

theorem closeReason_missingZone {z : Nat} (hz : z < (st.header page).zones)
    (unmarked : st.zoneMarks.getD z false = false) (below : ∀ i < z, st.zoneMarks.getD i false = true) :
    st.closeReason page = (.missingZone, z) := by
  simp [closeReason, firstUnmarked_some hz unmarked below]

theorem closeReason_missingStep {k : Nat} (zones : st.ZonesMarked page) (hk : k < (st.header page).steps)
    (unmarked : st.stepMarks.getD k false = false) (below : ∀ i < k, st.stepMarks.getD i false = true) :
    st.closeReason page = (.missingStep, k) := by
  simp [closeReason, firstUnmarked_none zones, firstUnmarked_some hk unmarked below]

theorem closeReason_badZone {k : Nat} (zones : st.ZonesMarked page) (steps : st.StepsMarked page)
    (hk : k < (st.header page).steps) (bad : st.BadStep page (st.header page) k)
    (below : ∀ i < k, ¬st.BadStep page (st.header page) i) : st.closeReason page = (.badZone, k) := by
  simp [closeReason, firstUnmarked_none zones, firstUnmarked_none steps, firstBad_some hk bad below]

theorem closeReason_complete (zones : st.ZonesMarked page) (steps : st.StepsMarked page)
    (good : ∀ i < (st.header page).steps, ¬st.BadStep page (st.header page) i) :
    st.closeReason page = (.none, 0) := by
  simp [closeReason, firstUnmarked_none zones, firstUnmarked_none steps, firstBad_none good]

/-! ### The pages behind PROFILE-CLOSE and PROFILE-ERASE (R176, R177, R179) -/

theorem freeProfile_page (st : Store) (page : Nat) {i : Nat} (hi : i < st.pages.length) :
    (st.freeProfile page).page i = if (st.page i).owner = some page then .free else st.page i :=
  st.onProfile_page page (fun _ => .free) hi

theorem closeProfile_written (complete : st.closeReason page = (.none, 0)) :
    st.closeProfile page = (st.onProfile page ({ · with state := .written })).clearMarks := by
  unfold closeProfile
  rw [complete]
  exact if_pos rfl

theorem closeProfile_freed {r : CloseReason} {i : Nat} (failed : st.closeReason page = (r, i)) (hr : r ≠ .none) :
    st.closeProfile page = (st.freeProfile page).clearMarks := by
  unfold closeProfile
  rw [failed]
  exact if_neg hr

theorem eraseProfile_inUse (st : Store) (page : Nat) : (st.eraseProfile page).inUse = st.inUse := by
  unfold eraseProfile
  split <;> rfl

theorem eraseProfile_page (st : Store) (page : Nat) {i : Nat} (hi : i < st.pages.length) :
    (st.eraseProfile page).page i = if (st.page i).owner = some page then .free else st.page i := by
  rw [← st.freeProfile_page page hi]
  unfold eraseProfile
  split <;> rfl

/-- The answers to PROFILE-ERASE (R179). -/
theorem eraseResult_eq (st : Store) (page : Nat) :
    st.eraseResult page =
      if 16 ≤ page then .invalid
      else if ¬((st.page page).state ≠ .free ∧ (st.page page).owner = some page) then .notFound
      else if st.inUse = some page then .inUse
      else .ok := by
  unfold eraseResult
  exact if_congr Iff.rfl rfl (if_congr (by rw [not_and_or, not_not]) rfl rfl)

end Store

/-! ### Serving PROFILE-CLOSE and PROFILE-ERASE -/

namespace State

variable {s : State} {page : Nat}

theorem serveClose_refused (tag : Byte) (h : s.store.isFirst page .opened = false) :
    s.serveClose tag page = s.replied 0x92#8 tag .state [] := by
  unfold State.serveClose Store.closeResult
  rw [h]
  exact if_pos rfl

/-- PROFILE-CLOSE of the OPEN profile answers with the reason and its index, and closes (R176, R177). -/
theorem serveClose_closes (tag : Byte) (h : s.store.isFirst page .opened = true) {r : CloseReason} {i : Nat}
    (reason : s.store.closeReason page = (r, i)) :
    s.serveClose tag page =
      (s.replied 0x92#8 tag (if r = .none then .ok else .incomplete) (byteOf r.code :: be2 i)).onStore
        (·.closeProfile page) := by
  unfold State.serveClose Store.closeResult
  rw [if_pos h, reason]
  exact if_neg (by dsimp only; split <;> nofun)

theorem serveErase_refused (tag : Byte) {c : ResultCode} (h : s.store.eraseResult page = c) (hc : c ≠ .ok) :
    s.serveErase tag page = s.replied 0x93#8 tag c [] := by
  unfold State.serveErase
  rw [h]
  exact if_neg hc

theorem serveErase_erases (tag : Byte) (h : s.store.eraseResult page = .ok) :
    s.serveErase tag page = (s.replied 0x93#8 tag .ok []).onStore (·.eraseProfile page) := by
  unfold State.serveErase
  rw [h]
  exact if_pos rfl

end State

/-- Settles O38: the three checks give the reason of a close in their order, and the checks of an erase its answer. -/
theorem profileCloseAndErase : Obligations.ProfileCloseAndErase := by
  intro tag s page taken inv h isOpen freed named
  have length : s.store.pages.length = 16 := inv.1
  have first : isOpen → s.store.isFirst page .opened = true := (s.store.isFirst_iff page _).2
  have incomplete : ∀ {r k}, isOpen → s.store.closeReason page = (r, k) → r ≠ .none →
      ∃ t, exec (.profileClose tag page) s = .next t ∧ freed t ∧
        t.link = s.link.placeReply ⟨0x92#8, tag, .incomplete, byteOf r.code :: be2 k⟩ ∧
        Keeps s t [.store, .link] := fun ho reason hr => by
    refine ⟨_, exec_profileClose_taken page taken, fun i hi => ?_, ?_, ?_⟩ <;>
      rw [State.serveClose_closes tag (first ho) reason, if_neg hr]
    · rw [State.onStore_store]
      show (s.store.closeProfile page).page i = _
      rw [Store.closeProfile_freed reason hr]
      exact s.store.freeProfile_page page (length ▸ hi)
    · rfl
    · simp [Keeps, State.replied]
  have result := s.store.eraseResult_eq page
  have inside := fun hp : page < 16 => result.trans (if_neg (Nat.not_le.2 hp))
  have refuse : ∀ {code}, s.store.eraseResult page = code → code ≠ .ok →
      exec (.profileErase tag page) s = .next (s.replied 0x93#8 tag code []) := fun ha hn => by
    rw [exec_profileErase_taken page taken, State.serveErase_refused tag ha hn]
  refine ⟨fun ho => ?_, fun ho zones steps good => ?_, fun ho z hz unmarked below => ?_,
    fun ho zones k hk unmarked below => ?_, fun ho zones steps k hk bad below => ?_,
    fun hp => refuse ?_ nofun, fun hp hn => refuse ?_ nofun, fun hp hn used => refuse ?_ nofun,
    fun hp hn unused => ?_⟩
  · rw [exec_profileClose_taken page taken, State.serveClose_refused tag]
    exact Bool.eq_false_iff.2 fun hf => ho ((s.store.isFirst_iff page _).1 hf)
  · have complete := Store.closeReason_complete zones steps fun i hi ⟨x, hx, hbad⟩ => by
      obtain ⟨closes, within⟩ := good i hi x hx
      rcases hbad with hc | ⟨z, hz, beyond⟩
      · rw [closes] at hc
        cases hc
      · exact Nat.not_lt.2 beyond (within z hz)
    refine ⟨_, (exec_profileClose_taken page taken).trans
      (congrArg _ (State.serveClose_closes tag (first ho) complete)), fun i hi => ?_, rfl, ?_, ?_⟩
    · show (s.store.closeProfile page).page i = _
      rw [Store.closeProfile_written complete]
      exact s.store.onProfile_page page _ (length ▸ hi)
    · show (s.store.closeProfile page).inUse = _
      rw [Store.closeProfile_written complete]
      rfl
    · simp [Keeps, State.replied]
  · exact incomplete ho (Store.closeReason_missingZone hz unmarked below) nofun
  · exact incomplete ho (Store.closeReason_missingStep zones hk unmarked below) nofun
  · exact incomplete ho (Store.closeReason_badZone zones steps hk bad below) nofun
  · exact result.trans (if_pos hp)
  · exact (inside hp).trans (if_pos hn)
  · exact (inside hp).trans ((if_neg (not_not.2 hn)).trans (if_pos used))
  · have ok := (inside hp).trans ((if_neg (not_not.2 hn)).trans (if_neg unused))
    refine ⟨_, (exec_profileErase_taken page taken).trans (congrArg _ (State.serveErase_erases tag ok)),
      fun i hi => s.store.eraseProfile_page page (length ▸ hi), rfl, s.store.eraseProfile_inUse page, ?_⟩
    simp [Keeps, State.replied]

end Sys2Proof.Machine

namespace Sys2Proof.Machine

/-! ### Every step keeps the shape of the store (R170) -/

namespace State

variable {s : State}

theorem serveConfig_storeInv {α : Type} (h : StoreInv s.store) (tag : Byte) (want : Nat) (items : List Int)
    (read : Option α) (write : α → State → State) (hw : ∀ c u, (write c u).store.contents = u.store.contents) :
    StoreInv (s.serveConfig tag want items read write).store := by
  unfold State.serveConfig
  dsimp only
  split
  · split
    · exact h.of_contents (hw _ _)
    · exact h
  · exact h

/-- A PROFILE-CLOSE that is not refused finds the OPEN profile's first page (R176). -/
theorem serveClose_storeInv (h : StoreInv s.store) (tag : Byte) (page : Nat) :
    StoreInv (s.serveClose tag page).store := by
  cases hf : s.store.isFirst page .opened
  · rw [State.serveClose_refused tag hf]
    exact h
  · obtain ⟨hp, _, ho⟩ := (s.store.isFirst_iff page _).1 hf
    rw [State.serveClose_closes tag hf rfl]
    exact h.closeProfile hp ho

theorem serveErase_storeInv (h : StoreInv s.store) (tag : Byte) (page : Nat) :
    StoreInv (s.serveErase tag page).store := by
  by_cases ok : s.store.eraseResult page = .ok
  · rw [State.serveErase_erases tag ok]
    rw [Store.eraseResult_eq] at ok
    split_ifs at ok with beyond named
    exact h.eraseProfile (Nat.not_le.1 beyond) named.2
  · rw [State.serveErase_refused tag rfl ok]
    exact h

/-- Of the requests the four of the Profile Store write pages, within the shape (R170, R188). -/
theorem serve_storeInv (h : StoreInv s.store) (tag : Byte) (r : Request) : StoreInv (s.serve tag r).store := by
  have kept : ∀ {t : State}, t.frame = s.frame → StoreInv t.store := fun e =>
    h.of_contents (State.contents_of_frame e)
  cases r
  case profileOpen page size zones steps name =>
    dsimp only [State.serve, State.serveOpen]
    split
    · exact h.openProfile name ‹_›
    · exact h
  case profileData page rs =>
    dsimp only [State.serve, State.serveData]
    split
    · exact h.writeRecords page rs
    · exact h
  case profileClose page => exact serveClose_storeInv h tag page
  case profileErase page => exact serveErase_storeInv h tag page
  case configureMachine | configureQuench | configureMeasure | configureFlow | configurePrestart =>
    exact serveConfig_storeInv h tag _ _ _ _ fun _ _ => rfl
  case configureTrip =>
    exact serveConfig_storeInv h tag _ _ _ _ fun _ _ =>
      (State.contents_of_frame (State.raisePresent_frame _ _)).trans rfl
  case restart => exact kept (s.serveRestart_frame tag)
  case stop => exact kept (State.stopEffect_frame _)
  case step r => exact kept (s.serveStep_frame tag r)
  case trim t sp m => exact kept (s.serveTrim_frame tag t sp m)
  case forceTrip => exact kept (State.raise_frame _ _ _)
  case startProfile | startStream =>
    refine kept ?_
    dsimp only [State.serve, State.serveStartProfile, State.serveStartStream]
    split <;> simp
  case status | inhibitOn | inhibitOff | profileList | recordGet => exact h
  case home | moveTo | clearTrip | recordRelease =>
    refine kept ?_
    dsimp only [State.serve, State.serveHome, State.serveMoveTo, State.serveClearTrip, State.serveRelease]
    split <;> rfl

theorem request_storeInv (h : StoreInv s.store) (tag : Byte) (r : Request) :
    StoreInv (s.request tag r (·.serve tag r)).store := by
  unfold State.request
  split_ifs
  · exact h
  · exact serve_storeInv h tag r
  · exact h

theorem dispatch_storeInv (h : StoreInv s.store) : StoreInv s.dispatch.store := by
  unfold State.dispatch
  split
  · exact h
  · rename_i rest _
    split
    · dsimp only
      split
      · exact h
      · exact h
      · exact serve_storeInv (s := s.onLink ({ · with rxBuffer := rest })) h _ _
    · exact h

end State

/-- An event that is no input change, no dispatch and no RESET leaves the frame. -/
theorem exec_frame {c : Instr} {s t : State} (hr : c.request = none) (hi : c.isInput = false)
    (hw : c.writesPages = false) (e : exec c s = .next t) : t.frame = s.frame := by
  cases c
  case readyInputChange | faultInputChange | emergencyStopInput | encoderFaultInput => cases hi
  case reset | dispatch => cases hw
  case frameReceived | receiveGapTimeout | byteReceived | powerUpdate | requestTimerExpiry |
      calibrationTimerExpiry | pumpIdleTimerExpiry => cases e; rfl
  case frameSent =>
    cases e
    unfold State.frameSent
    split <;> rfl
  case positionSample => cases e; exact s.positionSample_frame _
  case stepTimerExpiry => cases e; exact s.stepTick_frame
  case prestartTimeout => cases e; exact s.prestartTimeout_frame
  case conversionComplete code => cases e; exact s.conversionComplete_frame code
  case provingTimerExpiry k => cases e; exact s.provingExpiry_frame k
  case dropoutTimerExpiry k => cases e; exact s.dropoutExpiry_frame k
  case floodTimerExpiry => cases e; exact s.floodExpired_frame
  case coilWaterTimerExpiry => cases e; exact s.coilWaterExpired_frame
  case lowCountReached => cases e; exact s.lowCountReached_frame
  case stoppingComplete => cases e; exact s.stoppingComplete_frame
  case arrived => cases e; exact s.arrived_frame
  case returned => cases e; exact s.returned_frame
  case turnStoppedActivation => cases e; exact s.turnStoppedActivation_frame
  case enterRunning => cases e; exact s.enterRunning_frame
  case admission => cases e; exact s.admission_frame
  case loaderAppend => cases e; exact s.loaderAppend_frame
  all_goals cases hr

/-- An input change writes its level and may raise a source (R61, R84, R85, R134). -/
theorem exec_input_contents {c : Instr} {s t : State} (hi : c.isInput = true) (e : exec c s = .next t) :
    t.store.contents = s.store.contents := by
  have raised : ∀ {u : State}, u.store = s.store → ∀ was now src,
      (u.raiseIf was now src).store.contents = s.store.contents := fun hu was now src =>
    (State.contents_of_frame (State.raiseIf_frame _ was now src none)).trans (congrArg _ hu)
  cases c
  case readyInputChange | faultInputChange | emergencyStopInput | encoderFaultInput =>
    cases e
    exact raised (by rfl) _ _ _
  all_goals cases hi

/-- Every command keeps the shape of the store; RESET frees it whole (R183). -/
theorem exec_storeInv {c : Instr} {s t : State} (h : StoreInv s.store) (e : exec c s = .next t) :
    StoreInv t.store := by
  cases hr : c.request with
  | some p =>
    rw [exec_request c p.1 p.2 s hr] at e
    cases e
    exact State.request_storeInv h _ _
  | none =>
    cases hw : c.writesPages
    · refine h.of_contents ?_
      cases hi : c.isInput
      · exact State.contents_of_frame (exec_frame hr hi hw e)
      · exact exec_input_contents hi e
    · cases c
      case dispatch => cases e; exact State.dispatch_storeInv h
      case reset =>
        cases e
        exact reset_store.of_contents ((State.contents_of_frame (State.raisePresent_frame _ _)).trans rfl)
      all_goals cases hr <;> cases hw

/-- Settles O13: a command writes no page, or recasts one block of them, writes in place, or frees them all. -/
theorem storePagesKeepShape : Obligations.StorePagesKeepShape := by
  intro s t h e
  unfold step at e
  split at e
  · cases e
    exact h
  · rename_i c rest _
    exact exec_storeInv (s := { s with pending := rest }) h e

/-- Settles O1: by the two branches of `step`. -/
theorem stepTakesFrontCommand : Obligations.StepTakesFrontCommand := by
  refine ⟨fun c s => rfl, fun s idle => ?_⟩
  unfold step
  rw [idle]

end Sys2Proof.Machine

namespace Sys2Proof

/-- The events that act on the link itself: its own, and RESET (R186, R188, R191, R196). -/
def Instr.ofLink : Instr → Bool
  | .reset | .dispatch | .frameReceived | .receiveGapTimeout | .frameSent | .byteReceived _ => true
  | _ => false

end Sys2Proof

namespace Sys2Proof.Machine

/-! ### The bounds of the link's queues (R187, R188, R191) -/

/-- What `LinkInv` says, of the link itself. -/
def Link.Bounded (l : Link) : Prop :=
  l.replies ≤ 4 ∧ (∀ k, (l.out.filter (OutFrame.isNotice k)).length ≤ 1) ∧
    l.rxBuffer.length ≤ 4 ∧ l.busy.length ≤ 4 ∧ (l.sending = none → l.out = [] ∧ l.busy = [])

theorem LinkInv.bounded {s : State} : LinkInv s ↔ s.link.Bounded := Iff.rfl

namespace Link

theorem hasReplyPlace_iff (l : Link) : l.hasReplyPlace = true ↔ l.replies < 4 := decide_eq_true_iff

/-- A start of a frame takes from the queues, and establishes the last bound (R191). -/
theorem transmit_bounded {l : Link} (hr : l.replies ≤ 4)
    (hn : ∀ k, (l.out.filter (OutFrame.isNotice k)).length ≤ 1) (hx : l.rxBuffer.length ≤ 4)
    (hb : l.busy.length ≤ 4) : l.transmit.Bounded := by
  rcases l.transmit_cases with ⟨e, idle⟩ | ⟨b, rest, _, busy, e⟩ | ⟨f, rest, _, _, out, e⟩ <;> rw [e]
  · exact ⟨hr, hn, hx, hb, idle⟩
  · rw [busy, List.length_cons] at hb
    exact ⟨hr, hn, hx, Nat.le_of_succ_le hb, nofun⟩
  · have shrinks : ∀ p : OutFrame → Bool, (rest.filter p).length ≤ (l.out.filter p).length := fun p => by
      rw [out]
      exact ((List.sublist_cons_self f rest).filter p).length_le
    exact ⟨(shrinks _).trans hr, fun k => (shrinks _).trans (hn k), hx, hb, nofun⟩

/-- A notice leaves one of its kind, and no reply (R191). -/
theorem Bounded.placeNotice {l : Link} (h : l.Bounded) (n : Notice) : (l.placeNotice n).Bounded := by
  obtain ⟨hr, hn, hx, hb, _⟩ := h
  have shrinks : ∀ p : OutFrame → Bool,
      ((l.out.filter (fun f => !f.isNotice n.kind)).filter p).length ≤ (l.out.filter p).length :=
    fun p => (List.filter_sublist.filter p).length_le
  refine transmit_bounded ?_ (fun k => ?_) hx hb
  · show ((l.out.filter _ ++ [OutFrame.notice n]).filter _).length ≤ 4
    rw [List.filter_append, List.length_append]
    exact (shrinks _).trans hr
  · show ((l.out.filter _ ++ [OutFrame.notice n]).filter _).length ≤ 1
    rw [List.filter_append, List.length_append]
    by_cases hk : n.kind = k
    · have gone : (l.out.filter (fun f => !f.isNotice n.kind)).filter (OutFrame.isNotice k) = [] := by
        simp [hk]
      rw [gone, List.length_nil, Nat.zero_add]
      exact List.length_filter_le _ [OutFrame.notice n]
    · have other : [OutFrame.notice n].filter (OutFrame.isNotice k) = [] := by simp [OutFrame.isNotice, hk]
      rw [other]
      exact (shrinks _).trans (hn k)

/-- A reply joins where fewer than 4 wait (R188). -/
theorem Bounded.placeReply {l : Link} (h : l.Bounded) (room : l.replies < 4) (r : Reply) :
    (l.placeReply r).Bounded := by
  obtain ⟨_, hn, hx, hb, _⟩ := h
  refine transmit_bounded ?_ (fun k => ?_) hx hb
  · show ((l.out ++ [OutFrame.reply r]).filter OutFrame.isReply).length ≤ 4
    rw [List.filter_append, List.length_append]
    exact room
  · show ((l.out ++ [OutFrame.reply r]).filter _).length ≤ 1
    rw [List.filter_append, List.length_append]
    exact hn k

theorem Bounded.arrive {l : Link} (h : l.Bounded) (r : RawRequest) : (l.arrive r).Bounded := by
  have bounds := h
  obtain ⟨hr, hn, hx, hb, hs⟩ := bounds
  unfold Link.arrive
  split_ifs with _ hbuffer hbusy
  · exact h
  · refine ⟨hr, hn, ?_, hb, hs⟩
    rw [List.length_append]
    exact hbuffer
  · refine transmit_bounded hr hn hx ?_
    rw [List.length_append]
    exact hbusy
  · exact h

/-- The bounds do not read the bytes held. -/
theorem Bounded.hold {l : Link} (h : l.Bounded) (bytes : List Byte) :
    Bounded { l with rxBytes := bytes } := h

theorem Bounded.frameReceived {l : Link} (h : l.Bounded) : l.frameReceived.Bounded := by
  unfold Link.frameReceived
  split
  · split
    · exact (h.hold _).arrive _
    · exact h.hold _
  · exact h

theorem Bounded.settleGo {l : Link} (h : l.Bounded) (fuel : Nat) : (Link.settleGo fuel l).Bounded := by
  induction fuel generalizing l with
  | zero => exact h
  | succ n ih =>
    unfold Link.settleGo
    split
    · exact ih h.frameReceived
    · exact h

theorem Bounded.byteReceived {l : Link} (h : l.Bounded) (b : Byte) : (l.byteReceived b).Bounded :=
  (h.settleGo _).hold _

theorem Bounded.gap {l : Link} (h : l.Bounded) : l.gap.Bounded := by
  unfold Link.gap
  split
  · exact h
  · exact h.hold _

theorem Bounded.frameSent {l : Link} (h : l.Bounded) : l.frameSent.Bounded := by
  obtain ⟨hr, hn, hx, hb, _⟩ := h
  exact transmit_bounded hr hn hx hb

/-- RESTART keeps replies and BUSY answers alone (R195). -/
theorem Bounded.restart {l : Link} (h : l.Bounded) : l.restart.Bounded := by
  obtain ⟨hr, hn, _, hb, hs⟩ := h
  refine ⟨?_, fun k => ?_, Nat.zero_le _, hb, fun idle => ?_⟩
  · exact ((List.filter_sublist (p := OutFrame.isReply)).filter _).length_le.trans hr
  · exact ((List.filter_sublist (p := OutFrame.isReply)).filter _).length_le.trans (hn k)
  · obtain ⟨out, busy⟩ := hs idle
    exact ⟨by rw [Link.restart, out]; rfl, busy⟩

/-- From the one link to the other notices alone have been placed (R191, R192). -/
def Notified : Link → Link → Prop := Relation.ReflTransGen fun l l' => ∃ n, l' = l.placeNotice n

theorem Notified.bounded {l l' : Link} (h : l.Notified l') (hl : l.Bounded) : l'.Bounded := by
  induction h with
  | refl => exact hl
  | tail _ placed ih =>
    obtain ⟨n, rfl⟩ := placed
    exact ih.placeNotice n

end Link

/-- What an operation has said on the link is notices alone: replies, receive buffer and BUSY answers are for the request that
began the step (R188, R191). -/
def Tells (s t : State) : Prop := s.link.Notified t.link

namespace Tells

/-- Nothing has been said. -/
theorem of_link {s t : State} (h : t.link = s.link) : Tells s t := by
  unfold Tells
  rw [h]
  exact Relation.ReflTransGen.refl

theorem refl (s : State) : Tells s s := of_link rfl

theorem trans {s t u : State} (h : Tells s t) (h' : Tells t u) : Tells s u :=
  Relation.ReflTransGen.trans h h'

theorem behind {s t u : State} (h' : Tells t u) (h : Tells s t) : Tells s u := h.trans h'

/-- One notice has been placed. -/
theorem of_notice {s t : State} (n : Notice) (h : t.link = s.link.placeNotice n) : Tells s t :=
  Relation.ReflTransGen.single ⟨n, h⟩

/-- A change of state and its notice (R20). -/
theorem enter (s : State) (st : SeqState) (c : Cause) : Tells s (s.enter st c) := of_notice _ rfl

theorem linkInv {s t : State} (h : Tells s t) (hs : LinkInv s) : LinkInv t := Link.Notified.bounded h hs

end Tells

namespace State

/-! #### Trips (R135 to R147) -/

theorem closeRecord_tells (s : State) (c : EndCause) (t : Option TripRecord) : Tells s (s.closeRecord c t) := by
  cases hr : s.zones.openRec with
  | some r => exact .of_notice _ (s.closeRecord_link_some c t r hr)
  | none => exact .of_link (s.closeRecord_link_none c t hr)

theorem enterTripped_tells (s : State) : Tells s s.enterTripped := by
  have told : Tells s (s.notify (.state .tripped .trip s.firstCause)) := .of_notice _ rfl
  have link := s.enterTripped_link
  split at link
  · exact told.trans (.of_notice _ link)
  · exact told.trans (.of_link link)

theorem tripProgress_tells (s : State) : Tells s s.tripProgress := by
  rcases s.tripProgress_cases with e | ⟨_, _, e⟩ <;> rw [e]
  · exact .refl s
  · exact s.enterTripped_tells

theorem latchingTrip_tells (s : State) (src : Source) (ch : Option Channel) :
    Tells s (s.latchingTrip src ch) := by
  have tripped : Tells s (s.notify (.trip src ch)) := .of_notice _ rfl
  cases hr : s.seq.state.isRest
  · have moved : Tells s (s.tripMoving src ch) :=
      tripped.trans (.of_notice _ (s.tripMoving_ordered src ch).2)
    rw [s.latchingTrip_moving src ch hr]
    exact moved.trans (State.tripProgress_tells _)
  · rw [s.latchingTrip_resting src ch hr]
    exact (State.enterTripped_tells _).behind (.of_notice _ (s.tripResting_ordered src ch).2)

theorem furtherTrip_tells (s : State) (src : Source) : Tells s (s.furtherTrip src) := by
  rcases s.furtherTrip_cases src with e | ⟨_, e | e⟩ | ⟨_, e⟩ <;> rw [e]
  · exact .of_link rfl
  · exact (State.tripProgress_tells _).behind (.of_link rfl)
  · exact (State.tripProgress_tells _).behind (.of_link rfl)
  · exact .of_link rfl

theorem raise_tells (s : State) (src : Source) (ch : Option Channel) : Tells s (s.raise src ch) := by
  unfold State.raise
  split
  · exact .of_link rfl
  · exact .refl s
  · split
    · exact s.furtherTrip_tells src
    · exact s.latchingTrip_tells src ch

/-- A change beside the link, and the raise of a condition that it has made present (R130). -/
theorem raised_tells {s u : State} (h : u.link = s.link) (was now : Bool) (src : Source)
    (ch : Option Channel) : Tells s (u.raiseIf was now src ch) := by
  unfold State.raiseIf
  split
  · exact (u.raise_tells src ch).behind (.of_link h)
  · exact .of_link h

theorem raisePresent_tells (s : State) (test : Source → Bool) : Tells s (s.raisePresent test) := by
  unfold State.raisePresent
  generalize (Source.all.filter test).flatMap s.raisesOf = raises
  induction raises generalizing s with
  | nil => exact .refl s
  | cons p ps ih => exact (s.raise_tells p.1 p.2).trans (ih _)

theorem onTrails_tells (s : State) (f : Quench → Quench) : Tells s (s.onTrails f) :=
  raised_tells (by rfl) _ _ _ _

/-! #### Activations and ends of steps and scans (R25, R33, R35, R43 to R46) -/

theorem sendMarks_tells (s : State) (marks : List Nat) : Tells s (s.sendMarks marks) := by
  unfold State.sendMarks
  induction marks generalizing s with
  | nil => exact .refl s
  | cons n rest ih => exact (ih _).behind (.of_notice (.mark n) rfl)

theorem exitPrestart_tells (s : State) (c : EndCause) : Tells s (s.exitPrestart c) := by
  unfold State.exitPrestart
  dsimp only
  refine Tells.trans ?_ (.of_link (State.scanOver_link _))
  refine Tells.trans ?_ (State.closeRecord_tells _ _ _)
  exact (Tells.enter _ _ _).behind (.of_link (by simp))

theorem runoutComplete_tells (s : State) : Tells s s.runoutComplete := by
  unfold State.runoutComplete
  dsimp only
  refine Tells.trans ?_ (.of_link (State.scanOver_link _))
  exact ((Tells.enter s _ _).trans (State.closeRecord_tells _ _ _)).trans (.of_link rfl)

theorem runoutMotion_tells (s : State) (returning : Bool) : Tells s (s.runoutMotion returning) := by
  by_cases hs : s.seq.state = .runout
  · rcases s.runoutMotion_cases returning hs with ⟨e, _⟩ | ⟨e, _⟩ | ⟨e, _⟩ <;> rw [e]
    · exact (runoutComplete_tells _).behind (.of_link rfl)
    · exact .of_link rfl
    · exact .of_link rfl
  · rw [s.runoutMotion_other _ hs]
    exact .refl s

theorem runoutEntry_tells (s : State) (c : EndCause) (stop : Option Int) :
    Tells s (s.runoutEntry c stop) := by
  have marked : ∀ u : State, Tells s u → Tells s (u.sendMarks (headMarks s.seq.queue)) :=
    fun u h => h.trans (u.sendMarks_tells _)
  have start : Tells s (s.runoutStart c) :=
    (marked _ (.enter s .runout (.scanEnd c))).trans (.of_link (by simp [State.runoutStart, Link.marked, Link.stated]))
  rw [State.runoutEntry_eq]
  exact (start.trans (State.onTrails_tells _ _)).trans (State.runoutMotion_tells _ _)

theorem vacantCheck_tells (s : State) : Tells s s.vacantCheck := by
  unfold State.vacantCheck
  split
  · split_ifs
    · exact s.runoutEntry_tells _ _
    · exact .refl s
    · exact s.runoutEntry_tells _ _
    · exact .refl s
  · exact .refl s

theorem handQuench_tells (s : State) (a : Admitted) : Tells s (s.handQuench a) := by
  unfold State.handQuench
  dsimp only
  split
  · exact s.onTrails_tells _
  · exact s.onTrails_tells _
  · exact .of_link rfl
  · exact .refl s

theorem activate_tells (s : State) (a : Admitted) : Tells s (s.activate a) := by
  have marked : Tells s ((s.onSeq (·.activated a)).sendMarks a.marks) :=
    (State.sendMarks_tells _ _).behind (.of_link rfl)
  exact (marked.trans (.of_link (by simp))).trans (State.handQuench_tells _ a)

theorem proceed_tells (s : State) : Tells s s.proceed := by
  unfold State.proceed
  split
  · split
    · split <;> exact .of_link rfl
    · exact s.activate_tells _
  · exact .of_link rfl

theorem clearActive_link (s : State) (a : Admitted) : (s.clearActive a).link = s.link := by
  unfold State.clearActive
  dsimp only
  split <;> rfl

theorem stepEnd_tells (s : State) : Tells s s.stepEnd := by
  unfold State.stepEnd
  split
  · exact .refl s
  · have cleared : Tells s (s.clearActive ‹_›) := .of_link (s.clearActive_link _)
    dsimp only
    split_ifs
    · exact cleared.trans (State.proceed_tells _)
    · exact cleared.trans (State.runoutEntry_tells _ _ _)
    · exact cleared.trans (State.runoutEntry_tells _ _ _)
    · exact cleared.trans (.of_link rfl)
    · exact cleared.trans (State.runoutEntry_tells _ _ _)

theorem sourceHead_tells (s : State) : Tells s s.sourceHead := by
  unfold State.sourceHead
  split
  · dsimp only
    split
    case h_1 id _ =>
      have spliced : Tells s (s.notify (.splice id)) := .of_notice _ rfl
      exact spliced.trans (.of_notice (.flow true) rfl)
    case h_2 =>
      unfold State.resumeLoader
      split
      · split <;> exact .of_link rfl
      · exact .of_link rfl
    all_goals exact .of_link rfl
  · exact .refl s

/-! #### A position sample (R48) -/

/-- Orders to the generator alone. -/
theorem Ordered.tells {s u : State} (h : s.Ordered u) : Tells s u := by
  obtain ⟨x, rfl, _⟩ := h
  exact .of_link rfl

theorem testLimits_tells (s : State) (r : Reading) : Tells s (s.testLimits r) := by
  have soft : ∀ u : State, Tells u u.testSoft := fun u => raised_tells (by rfl) _ _ _ _
  have low : ∀ (u : State) b, Tells u (u.testLow b) := fun u b => raised_tells (by rfl) _ _ _ _
  have high : ∀ (u : State) b, Tells u (u.testHigh b) := fun u b => raised_tells (by rfl) _ _ _ _
  have encoder : ∀ (u : State) b, Tells u (u.testEncoder b) := fun u b => raised_tells (by rfl) _ _ _ _
  have follow : ∀ u : State, Tells u u.testFollow := fun u => raised_tells (by rfl) _ _ _ _
  exact ((((soft s).trans (low _ _)).trans (high _ _)).trans (encoder _ _)).trans (follow _)

theorem modeTested_tells (s : State) (r : Reading) : Tells s (s.modeTested r) := by
  have tested := ((s.seekSample_ordered r.refSwitch).trans (State.arrivalSample_ordered _)).tells
  unfold State.modeTested State.scanSample
  split
  · exact tested.trans (State.stepEnd_tells _)
  · exact tested.trans (State.brakeSample_ordered _).tells

theorem positionSample_tells (s : State) (r : Reading) : Tells s (s.positionSample r) := by
  have own : Tells s (s.sampledPart r) := by
    obtain ⟨_, _, e, _⟩ := s.sampledPart_spec r
    exact .of_link (by rw [e])
  rw [positionSample_eq]
  exact ((own.trans (State.testLimits_tells _ r)).trans (State.modeTested_tells _ r)).trans (.of_link rfl)

/-! #### The part's own steps, timers and conversions -/

theorem admission_tells (s : State) : Tells s s.admission := by
  have falls : ∀ u : State, Tells u u.flowFall := fun u => by
    unfold State.flowFall
    split
    · exact .of_notice (.flow true) rfl
    · exact .refl u
  have fills : ∀ q, Tells s (s.onSeq q).flowFall.sourceHead := fun q =>
    (State.sourceHead_tells _).behind ((falls _).behind (.of_link rfl))
  unfold State.admission
  split
  · split
    · dsimp only
      split
      · split
        · exact (fills _).trans (State.proceed_tells _)
        · exact fills _
      · unfold State.programError
        split
        · exact s.exitPrestart_tells _
        · exact s.runoutEntry_tells _ _
    · exact .refl s
  · exact .refl s

theorem loaderAppend_tells (s : State) : Tells s s.loaderAppend := by
  unfold State.loaderAppend
  split
  · split
    · split
      · exact (State.vacantCheck_tells _).behind ((State.sourceHead_tells _).behind (.of_link rfl))
      · exact .refl s
    · exact .refl s
  · exact .refl s

theorem enterRunning_tells (s : State) : Tells s s.enterRunning := by
  unfold State.enterRunning
  split
  · have entered : Tells s ((s.onSeq ({ · with prestartTimer := none })).enter .running .ready) :=
      (Tells.enter _ _ _).behind (.of_link rfl)
    exact (entered.trans (State.proceed_tells _)).trans (State.vacantCheck_tells _)
  · exact .refl s

theorem returned_tells (s : State) : Tells s s.returned := by
  unfold State.returned
  split
  · split
    · exact s.activate_tells _
    · exact .refl s
  · exact .refl s

theorem turnStoppedActivation_tells (s : State) : Tells s s.turnStoppedActivation := by
  unfold State.turnStoppedActivation
  split
  · split
    · exact s.activate_tells _
    · exact .refl s
  · exact .refl s

theorem arrived_tells (s : State) : Tells s s.arrived := by
  unfold State.arrived
  split
  · split
    · exact (Tells.enter _ _ _).behind (.of_link rfl)
    · exact .refl s
  · exact .refl s

theorem homingEnd_tells (s : State) : Tells s s.homingEnd := by
  unfold State.homingEnd
  split
  · exact (Tells.enter _ _ _).behind (.of_link rfl)
  · exact .enter s _ _

theorem stoppingComplete_tells (s : State) : Tells s s.stoppingComplete := by
  have held : Tells s (s.onTravel Travel.orderHold) := .of_link rfl
  unfold State.stoppingComplete
  split
  · dsimp only
    split
    case h_1 => exact held.trans (State.homingEnd_tells _)
    case h_2 => exact held.trans (.enter _ _ _)
    case h_3 =>
      unfold State.beginReturn
      split
      · split <;> exact .of_link rfl
      · exact held
    case h_4 =>
      split
      · exact held.trans (State.runoutComplete_tells _)
      · exact .of_link rfl
    case h_5 =>
      unfold State.trippingStopped
      split
      · exact .of_link rfl
      · exact (State.tripProgress_tells _).behind (.of_link rfl)
    all_goals exact held
  · exact .refl s

theorem prestartTimeout_tells (s : State) : Tells s s.prestartTimeout := by
  unfold State.prestartTimeout
  split
  · exact s.exitPrestart_tells _
  · exact .refl s

theorem stepTick_tells (s : State) : Tells s s.stepTick := by
  unfold State.stepTick
  dsimp only
  split
  · exact .of_link rfl
  · split
    · exact (State.stepEnd_tells _).behind (.of_link rfl)
    · exact .of_link rfl

/-- A watch timer's expiry where it runs (R104, R105). -/
theorem watchExpiry_tells (s : State) (k : Circuit) (p : Prop) [Decidable p] :
    Tells s (if p then s.flowLost k else s) := by
  split
  · obtain ⟨z, e, _⟩ := s.flowLost_eq k
    rw [e]
    exact (State.raise_tells _ _ _).behind (.of_link rfl)
  · exact .refl s

theorem floodExpired_tells (s : State) : Tells s s.floodExpired := by
  unfold State.floodExpired
  split
  · dsimp only
    split
    · exact (State.tripProgress_tells _).behind (.of_link rfl)
    · exact .of_link rfl
  · exact .refl s

theorem coilWaterExpired_tells (s : State) : Tells s s.coilWaterExpired := by
  unfold State.coilWaterExpired
  split
  · exact raised_tells (by rfl) _ _ _ _
  · exact .refl s

theorem lowCountReached_tells (s : State) : Tells s s.lowCountReached := by
  unfold State.lowCountReached
  split
  · exact (State.raise_tells _ _ _).behind (.of_link rfl)
  · exact .refl s

/-- The owners' tests of published values (R86, R87, R104, R108, R132, R133). -/
theorem publish_tells (s : State) (c : Channel) (v : Int) : Tells s (s.publish c v) := by
  cases c
  case coilI | pyro | qTemp => exact raised_tells (by rfl) _ _ _ _
  case qPress =>
    show Tells s (s.takePressure v)
    unfold State.takePressure
    dsimp only
    split
    · exact .refl s
    · exact (State.vacantCheck_tells _).behind (.of_link rfl)
  all_goals exact .of_link rfl

theorem burstResult_tells (s : State) (b : Burst) : Tells s (s.burstResult b) := by
  cases hk : b.kind with
  | sample =>
    have told : Tells s (s.toldSample b) := by
      unfold State.toldSample
      dsimp only
      split
      · exact (State.publish_tells _ _ _).behind (.of_link rfl)
      · exact .of_link rfl
    rw [s.burstResult_sample b hk]
    exact told.trans (raised_tells rfl _ _ _ _)
  | calibration =>
    rw [s.burstResult_calibration b hk]
    exact .of_link rfl

theorem conversionComplete_tells (s : State) (code : Nat) : Tells s (s.conversionComplete code) := by
  unfold State.conversionComplete
  split
  · exact .refl s
  · dsimp only
    split
    · have free : Tells s (s.onMeas ({ · with converter := none })) := .of_link rfl
      exact (free.trans (State.burstResult_tells _ _)).trans (.of_link rfl)
    · exact .of_link rfl

/-! #### Requests, behind their reply -/

theorem stopEffect_tells (s : State) : Tells s s.stopEffect := by
  unfold State.stopEffect
  split
  case h_1 => exact s.exitPrestart_tells _
  case h_2 => exact s.runoutEntry_tells _ _
  all_goals exact .of_link rfl

theorem acceptStart_tells (s : State) (p : StartPlan) : Tells s (s.acceptStart p) := by
  have stated : Tells s (s.enter .prestart .start) := .enter s _ _
  rw [acceptStart_eq]
  cases p.page with
  | some page => exact stated.trans (.of_link rfl)
  | none => exact stated.trans (.of_notice (.flow true) rfl)

theorem acceptStep_tells (s : State) (step : ScanStep) : Tells s (s.acceptStep step) := by
  have joins : Tells s (s.joined step) := by
    by_cases held : step.closes = false ∧ s.seq.flow ≠ .held ∧ s.cfg.flow.high ≤ s.seq.queue.length + 1
    · exact .of_notice (.flow false) (if_pos held)
    · exact .of_link (if_neg held)
  have spins : ∀ u : State, Tells u (u.chooseSpin step) := fun u => by
    unfold State.chooseSpin
    split
    · split <;> exact .of_link rfl
    · exact .refl u
  rw [State.acceptStep_eq]
  exact ((joins.trans (spins _)).trans (State.sourceHead_tells _)).trans (State.vacantCheck_tells _)

theorem trimEffect_link (s : State) (t sp : Nat) (m : TrimMethod) : (s.trimEffect t sp m).link = s.link := by
  unfold State.trimEffect State.retrim
  dsimp only
  repeat' split
  all_goals rfl

end State

namespace State

theorem serveConfig_tells {α : Type} (s : State) (tag : Byte) (want : Nat) (items : List Int)
    (read : Option α) (write : α → State → State) (h : ∀ c u, Tells u (write c u)) :
    ∃ a, Tells (s.answer 0x02#8 tag a) (s.serveConfig tag want items read write) := by
  refine ⟨(s.configAnswer want items read, []), ?_⟩
  unfold State.serveConfig
  dsimp only
  split
  · split
    · exact h _ _
    · exact .refl _
  · exact .refl _

/-- A request that is served places its reply, and behind it notices alone; RESTART empties the link as well (R188, R195). -/
theorem serve_tells (s : State) (tag : Byte) {r : Request} (hr : r ≠ .restart) :
    ∃ a, Tells (s.answer r.kindByte tag a) (s.serve tag r) := by
  cases r
  case restart => exact absurd rfl hr
  case configureMachine | configureQuench | configureMeasure | configureFlow | configurePrestart =>
    exact s.serveConfig_tells _ _ _ _ _ fun _ _ => .of_link rfl
  case configureTrip =>
    exact s.serveConfig_tells _ _ _ _ _ fun _ _ => (State.raisePresent_tells _ _).behind (.of_link rfl)
  all_goals apply Exists.intro
  case stop => exact State.stopEffect_tells _
  case forceTrip => exact State.raise_tells _ _ _
  case startProfile | startStream =>
    dsimp only [State.serve, State.serveStartProfile, State.serveStartStream]
    split
    · exact State.acceptStart_tells _ _
    · exact .refl _
  case home | moveTo | clearTrip =>
    dsimp only [State.serve, State.serveHome, State.serveMoveTo, State.serveClearTrip]
    split
    · exact (Tells.enter _ _ _).behind (.of_link rfl)
    · exact .refl _
  case step r =>
    dsimp only [State.serve, State.serveStep]
    split
    · split
      · exact State.acceptStep_tells _ _
      · exact .refl _
    · exact .refl _
  case trim t sp m =>
    dsimp only [State.serve, State.serveTrim]
    split
    · exact .of_link (State.trimEffect_link _ _ _ _)
    · exact .refl _
  case profileOpen | profileData | profileClose | profileErase | recordRelease =>
    dsimp only [State.serve, State.serveOpen, State.serveData, State.serveClose, State.serveErase,
      State.serveRelease]
    split <;> exact .of_link rfl
  case status | inhibitOn | inhibitOff | profileList | recordGet => exact .of_link rfl

theorem answer_linkInv {s : State} (h : LinkInv s) (room : s.link.replies < 4) (kind tag : Byte)
    (a : Answer) : LinkInv (s.answer kind tag a) :=
  LinkInv.bounded.2 (Link.Bounded.placeReply h room _)

theorem serve_linkInv {s : State} (h : LinkInv s) (room : s.link.replies < 4) (tag : Byte) (r : Request) :
    LinkInv (s.serve tag r) := by
  by_cases hr : r = .restart
  · subst hr
    have replied : ∀ a, LinkInv (s.answer 0x03#8 tag a) := answer_linkInv h room _ _
    show LinkInv (s.serveRestart tag)
    unfold State.serveRestart
    dsimp only
    split
    · refine (State.raisePresent_tells _ _).linkInv ((Tells.of_notice _ rfl).linkInv ?_)
      exact LinkInv.bounded.2 (Link.Bounded.restart (replied _))
    · exact replied _
  · obtain ⟨a, told⟩ := s.serve_tells tag hr
    exact told.linkInv (answer_linkInv h room _ _ a)

theorem request_linkInv {s : State} (h : LinkInv s) (tag : Byte) (r : Request) :
    LinkInv (s.request tag r (·.serve tag r)) := by
  unfold State.request
  split_ifs with _ free
  · exact h
  · exact serve_linkInv h ((Link.hasReplyPlace_iff _).1 (Bool.and_eq_true_iff.1 free).2) tag r
  · exact LinkInv.bounded.2 (Link.Bounded.arrive h _)

theorem dispatch_linkInv {s : State} (h : LinkInv s) : LinkInv s.dispatch := by
  unfold State.dispatch
  split
  · exact h
  · rename_i r rest buffer
    split
    · rename_i free
      have room := (Link.hasReplyPlace_iff _).1 free
      have taken : LinkInv (s.onLink ({ · with rxBuffer := rest })) := by
        obtain ⟨hr, hn, hx, hb, hs⟩ := h
        rw [buffer, List.length_cons] at hx
        exact ⟨hr, hn, Nat.le_of_succ_le hx, hb, hs⟩
      dsimp only
      split
      · exact answer_linkInv taken room _ _ _
      · exact answer_linkInv taken room _ _ _
      · exact serve_linkInv taken room _ _
    · exact h

/-- RESET empties the link but for its notice, and the raises behind it add theirs (R152, R196). -/
theorem resetPart_linkInv (s : State) : LinkInv s.resetPart :=
  (State.raisePresent_tells _ _).linkInv reset_link

end State

/-- Every event that does not act on the link itself says notices alone. -/
theorem exec_tells {c : Instr} {s t : State} (e : exec c s = .next t) (hr : c.request = none)
    (hl : c.ofLink = false) : Tells s t := by
  cases c
  case reset | dispatch | frameReceived | receiveGapTimeout | frameSent | byteReceived => cases hl
  case powerUpdate | requestTimerExpiry | calibrationTimerExpiry | pumpIdleTimerExpiry =>
    cases e
    exact .of_link rfl
  case positionSample => cases e; exact s.positionSample_tells _
  case stepTimerExpiry => cases e; exact s.stepTick_tells
  case prestartTimeout => cases e; exact s.prestartTimeout_tells
  case conversionComplete code => cases e; exact s.conversionComplete_tells code
  case provingTimerExpiry k => cases e; exact s.watchExpiry_tells k _
  case dropoutTimerExpiry k => cases e; exact s.watchExpiry_tells k _
  case floodTimerExpiry => cases e; exact s.floodExpired_tells
  case coilWaterTimerExpiry => cases e; exact s.coilWaterExpired_tells
  case lowCountReached => cases e; exact s.lowCountReached_tells
  case readyInputChange | faultInputChange | emergencyStopInput | encoderFaultInput =>
    cases e
    exact State.raised_tells (by rfl) _ _ _ _
  case stoppingComplete => cases e; exact s.stoppingComplete_tells
  case arrived => cases e; exact s.arrived_tells
  case returned => cases e; exact s.returned_tells
  case turnStoppedActivation => cases e; exact s.turnStoppedActivation_tells
  case enterRunning => cases e; exact s.enterRunning_tells
  case admission => cases e; exact s.admission_tells
  case loaderAppend => cases e; exact s.loaderAppend_tells
  all_goals cases hr

/-- Every command keeps the bounds of the link. -/
theorem exec_linkInv {c : Instr} {s t : State} (h : LinkInv s) (e : exec c s = .next t) : LinkInv t := by
  cases hr : c.request with
  | some p =>
    rw [exec_request c p.1 p.2 s hr] at e
    cases e
    exact State.request_linkInv h _ _
  | none =>
    by_cases hl : c.ofLink = false
    · exact (exec_tells e hr hl).linkInv h
    · cases c
      case reset => cases e; exact s.resetPart_linkInv
      case dispatch => cases e; exact State.dispatch_linkInv h
      case frameReceived => cases e; exact LinkInv.bounded.2 (Link.Bounded.frameReceived h)
      case receiveGapTimeout => cases e; exact LinkInv.bounded.2 (Link.Bounded.gap h)
      case byteReceived b => cases e; exact LinkInv.bounded.2 (Link.Bounded.byteReceived h b)
      case frameSent =>
        cases e
        unfold State.frameSent
        split
        · exact LinkInv.bounded.2 (Link.Bounded.frameSent h)
        · exact h
      all_goals exact absurd rfl hl

/-- Settles O4: a step's reply finds a place, and whatever else it says is notices, of which one of a kind stays. -/
theorem linkBoundsKept : Obligations.LinkBoundsKept := by
  intro s t h e
  unfold step at e
  split at e
  · cases e
    exact h
  · rename_i c rest _
    exact exec_linkInv (s := { s with pending := rest }) h e

end Sys2Proof.Machine

namespace Sys2Proof.Machine

/-! ### Fields read as they were written (R184) -/

theorem fitsU_iff {n x : Nat} : fitsU n x = true ↔ x < 256 ^ n := decide_eq_true_iff

theorem fitsS4_iff {x : Int} : fitsS4 x = true ↔ -2147483648 ≤ x ∧ x < 2147483648 := by
  simp [fitsS4]

theorem byteOf_reads {n : Nat} (h : fitsU 1 n = true) : (byteOf n).toNat = n := by
  rw [fitsU_iff] at h
  exact Nat.mod_eq_of_lt h

/-- A byte reads as the rest of its number. -/
theorem byteOf_toNat (n : Nat) : (byteOf n).toNat = n % 256 := rfl

theorem be2_reads {n : Nat} (h : fitsU 2 n = true) : ∃ a b, be2 n = [a, b] ∧ u16 a b = n := by
  rw [fitsU_iff] at h
  refine ⟨_, _, be2_fits n h, ?_⟩
  simp only [u16, byteOf_toNat]
  omega

theorem be4_reads {n : Nat} (h : fitsU 4 n = true) :
    ∃ a b c d, be4 n = [a, b, c, d] ∧ u32 a b c d = n := by
  rw [fitsU_iff] at h
  refine ⟨_, _, _, _, be4_fits n h, ?_⟩
  simp only [u32, u16, byteOf_toNat]
  omega

/-- A signed field in two's complement. -/
theorem beS4_reads {x : Int} (h : fitsS4 x = true) :
    ∃ a b c d, beS4 x = [a, b, c, d] ∧ s32 a b c d = x := by
  obtain ⟨low, high⟩ := fitsS4_iff.1 h
  have written : twos 4294967296 x = (x % 4294967296).toNat :=
    twos_fits 4294967296 x (by omega) (by omega)
  obtain ⟨a, b, c, d, e, value⟩ := be4_reads (n := twos 4294967296 x) (fitsU_iff.2 (by omega))
  refine ⟨a, b, c, d, e, ?_⟩
  unfold s32
  rw [value, written]
  split <;> omega

/-- The 8 bytes of a tag. -/
theorem be8_reads (t : Tag8) :
    ∃ a b c d e f g h, be8 t = [a, b, c, d, e, f, g, h] ∧ tag8 a b c d e f g h = t := by
  have small := t.isLt
  obtain ⟨a, b, c, d, high, vh⟩ := be4_reads (n := t.toNat / 4294967296) (fitsU_iff.2 (by omega))
  obtain ⟨e, f, g, h, low, vl⟩ := be4_reads (n := t.toNat % 4294967296) (fitsU_iff.2 (by omega))
  refine ⟨a, b, c, d, e, f, g, h, by rw [be8, high, low]; rfl, BitVec.eq_of_toNat_eq ?_⟩
  rw [tag8, vh, vl, BitVec.toNat_ofNat]
  omega

/-! ### Records read as they were written (R190, R193, R197) -/

theorem readItems_flatMap {xs : List Int} (h : xs.all fitsS4 = true) :
    readItems (xs.flatMap beS4) = some xs := by
  induction xs with
  | nil => rfl
  | cons x xs ih =>
    rw [List.all_cons, Bool.and_eq_true] at h
    obtain ⟨a, b, c, d, e, value⟩ := beS4_reads h.1
    rw [List.flatMap_cons, e]
    show (readItems (xs.flatMap beS4)).map (s32 a b c d :: ·) = _
    rw [ih h.2, value]
    rfl

/-- The bytes of a window record. -/
theorem WindowRecord.encode_reads {w : WindowRecord} (hw : w.wf = true) :
    ∃ k a b c d e f g h, w.encode = [k, a, b, c, d, e, f, g, h] ∧
      (⟨k.toNat, u32 a b c d, u32 e f g h⟩ : WindowRecord) = w := by
  unfold WindowRecord.wf at hw
  simp only [Bool.and_eq_true] at hw
  obtain ⟨⟨kind, low⟩, high⟩ := hw
  obtain ⟨a, b, c, d, e1, v1⟩ := be4_reads low
  obtain ⟨e, f, g, h, e2, v2⟩ := be4_reads high
  refine ⟨_, a, b, c, d, e, f, g, h, by rw [WindowRecord.encode, e1, e2]; rfl, ?_⟩
  rw [byteOf_reads kind, v1, v2]

theorem readWindows_flatMap {ws : List WindowRecord} (h : ws.all WindowRecord.wf = true) :
    readWindows (ws.flatMap WindowRecord.encode) = some ws := by
  induction ws with
  | nil => rfl
  | cons w ws ih =>
    rw [List.all_cons, Bool.and_eq_true] at h
    obtain ⟨k, a, b, c, d, e, f, g, i, bytes, value⟩ := WindowRecord.encode_reads h.1
    rw [List.flatMap_cons, bytes]
    show (readWindows (ws.flatMap WindowRecord.encode)).map (⟨k.toNat, u32 a b c d, u32 e f g i⟩ :: ·) = _
    rw [ih h.2, value]
    rfl

theorem readStep_encode {r : StepRecord} (h : r.wf = true) (rest : List Byte) :
    readStep (r.encode ++ rest) = some (r, rest) := by
  unfold StepRecord.wf at h
  simp only [Bool.and_eq_true] at h
  obtain ⟨⟨⟨⟨⟨⟨⟨kind, zone⟩, quench⟩, number⟩, endPos⟩, speed⟩, spin⟩, last⟩ := h
  obtain ⟨p0, p1, p2, p3, ep, vp⟩ := beS4_reads endPos
  obtain ⟨v0, v1, ev, vv⟩ := be2_reads speed
  obtain ⟨w0, w1, ew, vw⟩ := be2_reads spin
  obtain ⟨e0, e1, e2, e3, el, vl⟩ := be4_reads last
  rw [StepRecord.encode, ep, ev, ew, el]
  show some (StepRecord.mk _ _ _ _ (s32 p0 p1 p2 p3) (u16 v0 v1) (u16 w0 w1) (u32 e0 e1 e2 e3), rest) = _
  rw [byteOf_reads kind, byteOf_reads zone, byteOf_reads quench, byteOf_reads number, vp, vv, vw, vl]

theorem readRecords_flatMap {rs : List DataRecord} (h : rs.all DataRecord.wf = true) :
    readRecords rs.length (rs.flatMap DataRecord.encode) = some rs := by
  induction rs with
  | nil => rfl
  | cons r rs ih =>
    rw [List.all_cons, Bool.and_eq_true] at h
    obtain ⟨fits, others⟩ := h
    rw [List.flatMap_cons]
    cases r with
    | zone i w =>
      obtain ⟨index, window⟩ := Bool.and_eq_true_iff.1 fits
      obtain ⟨i0, i1, ei, vi⟩ := be2_reads index
      obtain ⟨k, a, b, c, d, e, f, g, j, bytes, value⟩ := WindowRecord.encode_reads window
      rw [DataRecord.encode, ei, bytes]
      show (readRecords rs.length (rs.flatMap DataRecord.encode)).map
        (.zone (u16 i0 i1) ⟨k.toNat, u32 a b c d, u32 e f g j⟩ :: ·) = _
      rw [ih others, vi, value]
      rfl
    | step i r =>
      obtain ⟨index, step⟩ := Bool.and_eq_true_iff.1 fits
      obtain ⟨i0, i1, ei, vi⟩ := be2_reads index
      rw [DataRecord.encode, ei]
      show (match readStep (r.encode ++ rs.flatMap DataRecord.encode) with
        | some (q, rest) => (readRecords rs.length rest).map (DataRecord.step (u16 i0 i1) q :: ·)
        | none => none) = _
      rw [readStep_encode step, vi]
      show (readRecords rs.length (rs.flatMap DataRecord.encode)).map _ = _
      rw [ih others]
      rfl

/-! ### Requests read as they were written (R190, 10.8) -/

theorem itemsWf_iff {n : Nat} {xs : List Int} : itemsWf n xs = true ↔ xs.length = n ∧ xs.all fitsS4 = true := by
  rw [itemsWf, Bool.and_eq_true, beq_iff_eq]

/-- The records of one request are fewer than 256: each has 12 bytes or more (R190). -/
theorem records_count_fits {rs : List DataRecord} (h : (rs.map DataRecord.bytes).sum ≤ 636) :
    fitsU 1 rs.length = true := by
  have each : ∀ qs : List DataRecord, 12 * qs.length ≤ (qs.map DataRecord.bytes).sum := fun qs => by
    induction qs with
    | nil => exact Nat.le_refl 0
    | cons q qs ih =>
      have : 12 ≤ q.bytes := by cases q <;> simp [DataRecord.bytes]
      rw [List.length_cons, List.map_cons, List.sum_cons]
      omega
  have := each rs
  exact fitsU_iff.2 (by omega)

theorem readRequest_payload {r : Request} (h : r.wf = true) :
    readRequest r.kindByte r.payload = some (some r) := by
  cases r
  case status | restart | home | stop | forceTrip | clearTrip | profileList | inhibitOn | inhibitOff => rfl
  case configureMachine xs | configureQuench xs | configureMeasure xs | configureTrip xs |
      configureFlow xs | configurePrestart xs =>
    obtain ⟨length, fits⟩ := itemsWf_iff.1 h
    refine congrArg some ?_
    unfold Request.payload encodeItems readConfigure
    simp only [readItems_flatMap fits, length]
    rfl
  case moveTo p v =>
    obtain ⟨target, speed⟩ := Bool.and_eq_true_iff.1 h
    obtain ⟨a, b, c, d, ep, vp⟩ := beS4_reads target
    obtain ⟨e, f, ev, vv⟩ := be2_reads speed
    rw [Request.payload, ep, ev]
    show some (some (Request.moveTo (s32 a b c d) (u16 e f))) = _
    rw [vp, vv]
  case startProfile p g =>
    obtain ⟨a, b, c, d, e, f, g', h', eg, vg⟩ := be8_reads g
    rw [Request.payload, eg]
    show some (some (Request.startProfile (byteOf p).toNat (tag8 a b c d e f g' h'))) = _
    rw [byteOf_reads h, vg]
  case startStream g ws =>
    obtain ⟨count, windows⟩ := Bool.and_eq_true_iff.1 h
    have length : (byteOf ws.length).toNat = ws.length :=
      byteOf_reads (fitsU_iff.2 ((of_decide_eq_true count).trans_lt (by decide)))
    obtain ⟨a, b, c, d, e, f, g', h', eg, vg⟩ := be8_reads g
    rw [Request.payload, eg]
    show some (match readWindows (ws.flatMap WindowRecord.encode) with
      | some ws' => if ws'.length = (byteOf ws.length).toNat then
          some (Request.startStream (tag8 a b c d e f g' h') ws') else none
      | none => none) = _
    rw [readWindows_flatMap windows, vg, length]
    exact congrArg some (if_pos rfl)
  case step r =>
    have read := readStep_encode h []
    rw [List.append_nil] at read
    show (match readStep r.encode with | some (q, []) => some (some (Request.step q)) | _ => some none) = _
    rw [read]
  case trim t s m =>
    simp only [Request.wf, Bool.and_eq_true] at h
    obtain ⟨⟨ht, hs⟩, hm⟩ := h
    obtain ⟨a, b, et, vt⟩ := be2_reads ht
    obtain ⟨c, d, es, vs⟩ := be2_reads hs
    rw [Request.payload, et, es]
    show some (some (Request.trim (u16 a b) (u16 c d) (byteOf m).toNat)) = _
    rw [vt, vs, byteOf_reads hm]
  case profileOpen p z n k g =>
    simp only [Request.wf, Bool.and_eq_true] at h
    obtain ⟨⟨⟨hp, hz⟩, hn⟩, hk⟩ := h
    obtain ⟨k0, k1, ek, vk⟩ := be2_reads hk
    obtain ⟨a, b, c, d, e, f, g', h', eg, vg⟩ := be8_reads g
    rw [Request.payload, ek, eg]
    show some (some (Request.profileOpen (byteOf p).toNat (byteOf z).toNat (byteOf n).toNat (u16 k0 k1)
      (tag8 a b c d e f g' h'))) = _
    rw [byteOf_reads hp, byteOf_reads hz, byteOf_reads hn, vk, vg]
  case profileData p rs =>
    simp only [Request.wf, Bool.and_eq_true, decide_eq_true_eq] at h
    obtain ⟨⟨hp, hb⟩, hr⟩ := h
    show some ((readRecords (byteOf rs.length).toNat (rs.flatMap DataRecord.encode)).map
      (Request.profileData (byteOf p).toNat ·)) = _
    rw [byteOf_reads (records_count_fits hb), readRecords_flatMap hr, byteOf_reads hp]
    rfl
  case profileClose p => exact congrArg (fun n => some (some (Request.profileClose n))) (byteOf_reads h)
  case profileErase p => exact congrArg (fun n => some (some (Request.profileErase n))) (byteOf_reads h)
  case recordGet n =>
    obtain ⟨a, b, e, v⟩ := be2_reads h
    rw [Request.payload, e]
    exact congrArg (fun n => some (some (Request.recordGet n))) v
  case recordRelease n =>
    obtain ⟨a, b, e, v⟩ := be2_reads h
    rw [Request.payload, e]
    exact congrArg (fun n => some (some (Request.recordRelease n))) v

/-- Settles O16: kind by kind, each field and each record reads as it was written. -/
theorem requestsDecodeEncode : Obligations.RequestsDecodeEncode := fun _ h => readRequest_payload h

end Sys2Proof.Machine

namespace Sys2Proof.Machine

/-! ### Wrong kinds and wrong lengths (R188, R190, 10.8) -/

/-- The kinds whose payload has one length, with it (10.8). -/
def fixedLengths : List (Nat × Nat) :=
  [(0x01, 0), (0x03, 0), (0x04, 0), (0x05, 6), (0x06, 0), (0x07, 9), (0x09, 16), (0x0A, 5), (0x0B, 1),
    (0x0C, 0), (0x0D, 0), (0x10, 13), (0x12, 1), (0x13, 1), (0x14, 0), (0x18, 2), (0x19, 2)]

theorem noPayload_none {payload : List Byte} (h : payload.length ≠ 0) (r : Request) :
    noPayload payload r = none := by
  cases payload with
  | nil => exact absurd rfl h
  | cons => rfl

theorem readItems_length {bytes : List Byte} {xs : List Int} (h : readItems bytes = some xs) :
    bytes.length = 4 * xs.length := by
  fun_induction readItems bytes generalizing xs with
  | case1 => cases h; rfl
  | case2 a b c d rest ih =>
    obtain ⟨ys, read, rfl⟩ := Option.map_eq_some_iff.1 h
    simp only [List.length_cons, ih read]
    omega
  | case3 => cases h

theorem readWindows_length {bytes : List Byte} {ws : List WindowRecord} (h : readWindows bytes = some ws) :
    bytes.length = 9 * ws.length := by
  fun_induction readWindows bytes generalizing ws with
  | case1 => cases h; rfl
  | case2 k a b c d e f g i rest ih =>
    obtain ⟨vs, read, rfl⟩ := Option.map_eq_some_iff.1 h
    simp only [List.length_cons, ih read]
    omega
  | case3 => cases h

/-- A step record is 16 bytes, and the rest is behind them (R197). -/
theorem readStep_takes {bytes rest : List Byte} {r : StepRecord} (h : readStep bytes = some (r, rest)) :
    16 ≤ bytes.length ∧ rest = bytes.drop 16 := by
  unfold readStep at h
  split at h
  · cases h
    exact ⟨by simp only [List.length_cons]; omega, rfl⟩
  · cases h

/-- Records that can be read fit their bytes (R190). -/
theorem readRecords_fit {n : Nat} {bytes : List Byte} {rs : List DataRecord}
    (h : readRecords n bytes = some rs) : recordsFit n bytes = true := by
  fun_induction readRecords n bytes generalizing rs with
  | case1 => rfl
  | case2 => cases h
  | case3 n i0 i1 k a b c d e f g i rest ih =>
    obtain ⟨qs, read, _⟩ := Option.map_eq_some_iff.1 h
    exact ih read
  | case5 n i0 i1 rest r rest' step _ ih =>
    obtain ⟨qs, read, _⟩ := Option.map_eq_some_iff.1 h
    obtain ⟨long, rfl⟩ := readStep_takes step
    have fits : decide (18 ≤ (i0 :: i1 :: rest).length) = true :=
      decide_eq_true (by simp only [List.length_cons]; omega)
    show (decide (18 ≤ (i0 :: i1 :: rest).length) && recordsFit n (rest.drop 16)) = true
    rw [fits, ih read]
    rfl
  | case4 | case6 | case7 | case8 => cases h

/-- A payload that is off its kind's one length (R190). -/
theorem readRequest_offLength {kind : Byte} {payload : List Byte} {n : Nat}
    (hk : (kind.toNat, n) ∈ fixedLengths) (hn : payload.length ≠ n) :
    readRequest kind payload = some none := by
  unfold readRequest
  simp only [fixedLengths, List.mem_cons, List.not_mem_nil, or_false, Prod.mk.injEq] at hk
  rcases hk with ⟨k, rfl⟩ | ⟨k, rfl⟩ | ⟨k, rfl⟩ | ⟨k, rfl⟩ | ⟨k, rfl⟩ | ⟨k, rfl⟩ | ⟨k, rfl⟩ | ⟨k, rfl⟩ | ⟨k, rfl⟩ |
      ⟨k, rfl⟩ | ⟨k, rfl⟩ | ⟨k, rfl⟩ | ⟨k, rfl⟩ | ⟨k, rfl⟩ | ⟨k, rfl⟩ | ⟨k, rfl⟩ | ⟨k, rfl⟩ <;>
    simp only [k, noPayload_none, ne_eq, hn, not_false_eq_true]
  on_goal 3 => -- STEP
    split
    · rename_i read
      obtain ⟨long, last⟩ := readStep_takes read
      have short : payload.length ≤ 16 := List.drop_eq_nil_iff.1 last.symm
      exact absurd (short.antisymm long) hn
    · rfl
  all_goals
    split
    · exact absurd rfl hn
    · rfl

/-- A kind that is not in the table (10.8). -/
theorem readRequest_badKind {kind : Byte} (payload : List Byte)
    (h : kind.toNat = 0 ∨ (0x0E ≤ kind.toNat ∧ kind.toNat ≤ 0x0F) ∨
      (0x15 ≤ kind.toNat ∧ kind.toNat ≤ 0x17) ∨ 0x1A ≤ kind.toNat) :
    readRequest kind payload = none := by
  unfold readRequest
  split
  case h_21 => rfl
  all_goals omega

/-- CONFIGURE off its group's length, or of no group (R193). -/
theorem readConfigure_offLength {payload : List Byte}
    (h : ∀ group items, payload = group :: items → (group.toNat, items.length) ∉
      [(1, 52), (2, 52), (3, 196), (4, 100), (5, 8), (6, 4)]) : readConfigure payload = none := by
  unfold readConfigure
  split
  · rfl
  · rename_i group items
    split
    · rfl
    · rename_i xs read
      have outside := h group items rfl
      rw [readItems_length read] at outside
      split
      case h_7 => rfl
      all_goals
        rename_i hg hx
        rw [hg, hx] at outside
        exact absurd (by decide) outside

/-- START-STREAM off 9 bytes and 9 for each zone of its count (R190). -/
theorem readStream_offLength {payload : List Byte}
    (h : payload.length ≠ 9 + 9 * (payload.getD 8 0#8).toNat) : readStream payload = none := by
  unfold readStream
  split
  · rename_i n rest
    split
    · rename_i ws read
      refine if_neg fun count => h ?_
      have behind := readWindows_length read
      simp only [List.length_cons, List.getD_cons_succ, List.getD_cons_zero, behind, count]
      omega
    · rfl
  · rfl

/-- PROFILE-DATA whose records do not fit its payload exactly (R190). -/
theorem readRecords_offLength {n : Nat} {bytes : List Byte} (h : recordsFit n bytes = false) :
    readRecords n bytes = none := by
  cases read : readRecords n bytes with
  | none => rfl
  | some rs =>
    rw [readRecords_fit read] at h
    cases h

/-- What R190 calls a wrong length, by the kind. -/
theorem readRequest_badLength {kind : Byte} {payload : List Byte}
    (h : (∃ n, (kind.toNat, n) ∈ fixedLengths ∧ payload.length ≠ n) ∨
      (kind.toNat = 0x02 ∧ ∀ group items, payload = group :: items →
        (group.toNat, items.length) ∉ [(1, 52), (2, 52), (3, 196), (4, 100), (5, 8), (6, 4)]) ∨
      (kind.toNat = 0x08 ∧ payload.length ≠ 9 + 9 * (payload.getD 8 0#8).toNat) ∨
      (kind.toNat = 0x11 ∧ ∀ page count records, payload = page :: count :: records →
        recordsFit count.toNat records = false)) :
    readRequest kind payload = some none := by
  rcases h with ⟨n, hk, hn⟩ | ⟨hk, off⟩ | ⟨hk, off⟩ | ⟨hk, off⟩
  · exact readRequest_offLength hk hn
  · unfold readRequest
    simp only [hk, readConfigure_offLength off]
  · unfold readRequest
    simp only [hk, readStream_offLength off]
  · unfold readRequest
    simp only [hk]
    split
    · rename_i page count records
      rw [readRecords_offLength (off page count records rfl)]
      rfl
    · rfl

/-! ### DISPATCH (R188) -/

/-- A request command that is taken at once is served (R188). -/
theorem exec_taken {c : Instr} {tag : Byte} {r : Request} {s : State} (h : c.request = some (tag, r))
    (taken : Taken s tag) : exec c s = .next (s.serve tag r) := by
  rw [exec_request c tag r s h, request_taken _ _ taken]

namespace State

section
variable {s : State} {r : RawRequest} {rest : List RawRequest}

theorem dispatch_badKind (hb : s.link.rxBuffer = r :: rest) (room : s.link.replies < 4)
    (hr : readRequest r.kind r.payload = none) :
    s.dispatch = (s.onLink ({ · with rxBuffer := rest })).answer r.kind r.tag (.badKind, []) := by
  unfold State.dispatch
  simp only [hb, (Link.hasReplyPlace_iff _).2 room, if_true, hr]

theorem dispatch_badLength (hb : s.link.rxBuffer = r :: rest) (room : s.link.replies < 4)
    (hr : readRequest r.kind r.payload = some none) :
    s.dispatch = (s.onLink ({ · with rxBuffer := rest })).answer r.kind r.tag (.badLength, []) := by
  unfold State.dispatch
  simp only [hb, (Link.hasReplyPlace_iff _).2 room, if_true, hr]

theorem dispatch_serves {q : Request} (hb : s.link.rxBuffer = r :: rest) (room : s.link.replies < 4)
    (hr : readRequest r.kind r.payload = some (some q)) :
    s.dispatch = (s.onLink ({ · with rxBuffer := rest })).serve r.tag q := by
  unfold State.dispatch
  simp only [hb, (Link.hasReplyPlace_iff _).2 room, if_true, hr]

/-- With nothing to take, or no place for its reply, DISPATCH waits. -/
theorem dispatch_waits (h : s.link.rxBuffer = [] ∨ 4 ≤ s.link.replies) : s.dispatch = s := by
  unfold State.dispatch
  split
  · rfl
  · rename_i buffer
    rw [buffer] at h
    refine if_neg fun free => ?_
    have room := (Link.hasReplyPlace_iff _).1 free
    exact h.elim nofun fun full => absurd room full.not_gt

end

end State

/-- Settles O20: what the head's payload reads as decides, and a well-formed request's reads as itself. -/
theorem dispatchServesOldest : Obligations.DispatchServesOldest := by
  have serves : ∀ (tag : Byte) (r : Request) (s : State) (rest : List RawRequest), r.wf = true →
      s.link.rxBuffer = ⟨r.kindByte, tag, r.payload⟩ :: rest → s.link.replies < 4 →
      exec .dispatch s = .next ({ s with link := { s.link with rxBuffer := rest } }.serve tag r) :=
    fun tag r s rest wf hb room =>
      congrArg Host.Outcome.next (State.dispatch_serves hb room (readRequest_payload wf))
  refine ⟨fun c tag r s hc tagged wf hb room => ?_, fun s r rest hb room => ⟨fun hk => ?_, fun hl => ?_⟩,
    fun c tag r hc => ⟨fun s taken => exec_taken hc taken, fun s rest => serves tag r s rest⟩, fun s h => ?_⟩
  · have taken : Taken { s with link := { s.link with rxBuffer := [] } } tag :=
      ⟨tagged, (Link.hasReplyPlace_iff _).2 room⟩
    rw [serves tag r s [] wf hb room, exec_taken hc taken]
  · exact congrArg Host.Outcome.next (State.dispatch_badKind hb room (readRequest_badKind _ hk))
  · exact congrArg Host.Outcome.next (State.dispatch_badLength hb room (readRequest_badLength hl))
  · exact congrArg Host.Outcome.next (State.dispatch_waits h)

end Sys2Proof.Machine

namespace Sys2Proof.Machine

/-! ### Arrival and the transmitter (R187, R188, R191) -/

namespace Link

/-- A transmitter that is sending starts nothing (R191). -/
theorem transmit_sending {l : Link} (h : l.sending.isSome = true) : l.transmit = l := by
  unfold Link.transmit
  split
  · rfl
  · rename_i idle
    rw [idle] at h
    cases h

theorem transmit_busy {l : Link} {b : BusyAnswer} {rest : List BusyAnswer} (hs : l.sending = none)
    (hb : l.busy = b :: rest) : l.transmit = { l with busy := rest, sending := some (.reply b.reply) } := by
  unfold Link.transmit
  simp only [hs, hb]

theorem transmit_out_head {l : Link} {f : OutFrame} {rest : List OutFrame} (hs : l.sending = none)
    (hb : l.busy = []) (ho : l.out = f :: rest) : l.transmit = { l with out := rest, sending := some f } := by
  unfold Link.transmit
  simp only [hs, hb, ho]

theorem transmit_nothing {l : Link} (hb : l.busy = []) (ho : l.out = []) : l.transmit = l := by
  unfold Link.transmit
  simp only [hb, ho]
  split <;> rfl

section
variable {l : Link} {r : RawRequest} (tagged : r.tag ≠ 0#8)
include tagged

theorem arrive_waits (room : l.rxBuffer.length < 4) :
    l.arrive r = { l with rxBuffer := l.rxBuffer ++ [r] } := by
  unfold Link.arrive
  rw [if_neg tagged, if_pos (show l.rxBuffer.length < linkCap from room)]

theorem arrive_owed (full : l.rxBuffer.length = 4) (room : l.busy.length < 4)
    (sends : l.sending.isSome = true) :
    l.arrive r = { l with busy := l.busy ++ [⟨r.kind, r.tag⟩] } := by
  unfold Link.arrive
  rw [if_neg tagged, if_neg (show ¬ l.rxBuffer.length < linkCap from full.not_lt),
    if_pos (show l.busy.length < linkCap from room)]
  exact transmit_sending sends

theorem arrive_dropped (full : l.rxBuffer.length = 4) (owed : l.busy.length = 4) : l.arrive r = l := by
  unfold Link.arrive
  rw [if_neg tagged, if_neg (show ¬ l.rxBuffer.length < linkCap from full.not_lt),
    if_neg (show ¬ l.busy.length < linkCap from owed.not_lt)]

end

end Link

theorem State.onLink_eq {s : State} {f : Link → Link} {l : Link} (h : f s.link = l) :
    s.onLink f = { s with link := l } := by
  unfold State.onLink
  rw [h]

/-- A request command that is not taken at once arrives (R187). -/
theorem exec_arrives {c : Instr} {tag : Byte} {r : Request} {s : State} (h : c.request = some (tag, r))
    (tagged : tag ≠ 0#8) (late : s.takesAtOnce = false) :
    exec c s = .next (s.onLink (·.arrive (r.raw tag))) := by
  rw [exec_request c tag r s h, request_arrives _ _ tagged late]

/-- Settles O19: by the branches of an arrival. -/
theorem requestsWaitTheirTurn : Obligations.RequestsWaitTheirTurn := by
  intro c tag r s hc
  have late : s.link.rxBuffer.length = 4 → s.takesAtOnce = false := fun full => by
    unfold State.takesAtOnce
    cases hb : s.link.rxBuffer with
    | nil => rw [hb] at full; cases full
    | cons => rfl
  refine ⟨fun untagged => ?_, fun tagged waits room => ?_, fun tagged full room sends => ?_,
    fun tagged full owed => ?_⟩
  · subst untagged
    rw [exec_request c _ r s hc, request_untagged]
  · rw [exec_arrives hc tagged waits, State.onLink_eq (Link.arrive_waits (r := r.raw tag) tagged room)]
    rfl
  · rw [exec_arrives hc tagged (late full),
      State.onLink_eq (Link.arrive_owed (r := r.raw tag) tagged full room sends)]
    rfl
  · rw [exec_arrives hc tagged (late full),
      State.onLink_eq (Link.arrive_dropped (r := r.raw tag) tagged full owed)]

/-- Settles O21: by what the transmitter finds, and nothing while it sends. -/
theorem transmitterOrder : Obligations.TransmitterOrder := by
  refine ⟨fun s idle => ?_, fun s sends => ?_, fun l n r sends => ⟨?_, Link.transmit_sending sends⟩⟩
  · show Host.Outcome.next s.frameSent = _
    unfold State.frameSent
    rw [if_neg (by rw [idle]; exact nofun)]
  · have sent : exec .frameSent s = .next (s.onLink Link.frameSent) := congrArg Host.Outcome.next (if_pos sends)
    refine ⟨fun b rest hb => ?_, fun f rest hb ho => ?_, fun hb ho => ?_⟩ <;> rw [sent]
    · exact congrArg Host.Outcome.next (State.onLink_eq (Link.transmit_busy rfl hb))
    · exact congrArg Host.Outcome.next (State.onLink_eq (Link.transmit_out_head rfl hb ho))
    · exact congrArg Host.Outcome.next (State.onLink_eq (Link.transmit_nothing hb ho))
  · rw [Link.placeNotice_eq]
    refine (Link.transmit_sending
      (l := { l with out := l.out.filter (fun f => !f.isNotice n.kind) ++ [.notice n] }) sends).trans ?_
    simp

/-! ### STATUS (R194) -/

theorem be2_length (n : Nat) : (be2 n).length = 2 := rfl

theorem beS4_length (x : Int) : (beS4 x).length = 4 := rfl

theorem sourceSet_length (xs : List Source) : (sourceSet xs).length = 3 := rfl

theorem stepPlace_length (p : Option (Origin × Nat)) : (stepPlace p).length = 3 := by cases p <;> rfl

theorem State.statusPayload_length (s : State) : s.statusPayload.length = 54 := by
  unfold State.statusPayload
  dsimp only
  cases s.seq.shadow <;>
    simp only [List.length_append, List.length_cons, List.length_nil, List.length_replicate, beS4_length,
      be2_length, stepPlace_length, sourceSet_length]

/-- State, last end and reference, then position, speed and output, stand first. -/
theorem State.statusPayload_opens (s : State) : ∃ rest, s.statusPayload =
    [byteOf s.seq.state.code, (match s.seq.lastEnd with | some c => byteOf c.code | none => 0#8),
      if s.travel.referenced then 1#8 else 0#8] ++
    ((beS4 s.travel.position ++ beS4 s.travel.speed ++ be2 s.power.pOut) ++ rest) := by
  unfold State.statusPayload
  simp only [List.append_assoc]
  exact ⟨_, rfl⟩

/-- Settles O22: the reply alone, with the payload written out. -/
theorem statusReplies : Obligations.StatusReplies := by
  intro tag s taken
  refine ⟨exec_status_taken taken, s.statusPayload_length, ?_⟩
  obtain ⟨rest, opens⟩ := s.statusPayload_opens
  rw [opens]
  refine ⟨List.take_left' rfl, ?_⟩
  show ((beS4 _ ++ beS4 _ ++ be2 _) ++ rest).take 10 = _
  exact List.take_left' rfl

end Sys2Proof.Machine

namespace Sys2Proof.Machine

/-! ### The receiver (R185, R186) -/

/-- A length that is known does not change with the bytes that follow. -/
theorem lengthField_extends {bytes whole : List Byte} (h : bytes <+: whole) {n : Nat}
    (hn : lengthField bytes = some n) : lengthField whole = some n := by
  obtain ⟨rest, rfl⟩ := h
  unfold lengthField at hn
  split at hn
  · exact hn
  · cases hn

/-- A start byte stays held while no length out of range follows it (R186). -/
theorem hunt_opens {rest : List Byte}
    (h : ∀ n, lengthField (startByte :: rest) = some n → goodLength n = true) :
    hunt (startByte :: rest) = startByte :: rest := by
  rw [hunt, if_pos rfl]
  split
  · rename_i n length
    exact if_pos (h n length)
  · rfl

namespace Link

/-- With no whole frame held a byte joins those held, and the search goes on over them (R186). -/
theorem byteReceived_partial {l : Link} (h : holdsFrame l.rxBytes = false) (b : Byte) :
    l.byteReceived b = { l with rxBytes := hunt (l.rxBytes ++ [b]) } := by
  have settled : ∀ fuel, Link.settleGo fuel l = l := fun fuel => by
    cases fuel with
    | zero => rfl
    | succ n =>
      unfold Link.settleGo
      rw [h]
      rfl
  unfold Link.byteReceived
  rw [settled]

theorem frameReceived_partial {l : Link} (h : holdsFrame l.rxBytes = false) : l.frameReceived = l := by
  unfold Link.frameReceived
  rw [h]
  rfl

/-- A damaged frame loses its start byte (R186). -/
theorem frameReceived_damaged {l : Link} (h : holdsFrame l.rxBytes = true)
    (damaged : checkedRequest l.rxBytes = none) :
    l.frameReceived = { l with rxBytes := hunt (l.rxBytes.drop 1) } := by
  unfold Link.frameReceived
  rw [h, damaged]
  rfl

/-- A good frame arrives, and leaves what follows it (R186, R187). -/
theorem frameReceived_good {l : Link} {n : Nat} {r : RawRequest} (length : lengthField l.rxBytes = some n)
    (h : holdsFrame l.rxBytes = true) (good : checkedRequest l.rxBytes = some r) :
    l.frameReceived = Link.arrive { l with rxBytes := hunt (l.rxBytes.drop (frameSize n)) } r := by
  unfold Link.frameReceived
  rw [h, good, length]
  rfl

theorem gap_partial {l : Link} (h : holdsFrame l.rxBytes = false) : l.gap = { l with rxBytes := [] } := by
  unfold Link.gap
  rw [h]
  rfl

theorem gap_whole {l : Link} (h : holdsFrame l.rxBytes = true) : l.gap = l := if_pos h

end Link

/-- Settles O18: the search over the bytes held with the new one, and the branches of a whole and a partial frame. -/
theorem receiverSearches : Obligations.ReceiverSearches := by
  intro s b
  have joins : holdsFrame s.link.rxBytes = false → ∀ held, hunt (s.link.rxBytes ++ [b]) = held →
      exec (.byteReceived b) s = .next { s with link := { s.link with rxBytes := held } } :=
    fun h held found => congrArg Host.Outcome.next
      (State.onLink_eq ((Link.byteReceived_partial h b).trans (by rw [found])))
  refine ⟨fun searching other => ?_, fun searching start => ?_, fun a held low high => ?_, fun held zero => ?_,
    fun rest held whole damaged => ?_, fun part => ?_, fun part => ?_, fun whole => ?_⟩
  · have dropped : hunt (s.link.rxBytes ++ [b]) = s.link.rxBytes := by
      rw [searching]
      exact if_neg other
    exact joins (by rw [searching]; rfl) _ dropped
  · refine joins (by rw [searching]; rfl) _ ?_
    rw [searching, start]
    exact hunt_opens nofun
  · refine joins (by rw [held]; rfl) _ ?_
    rw [held]
    refine hunt_opens fun n length => ?_
    obtain rfl : u16 a b = n := Option.some.inj length
    simp [goodLength, low, high]
  · refine joins (by rw [held]; rfl) _ ?_
    rw [held, zero]
    decide
  · refine congrArg Host.Outcome.next (State.onLink_eq ((Link.frameReceived_damaged whole damaged).trans ?_))
    rw [held]
    rfl
  · exact congrArg Host.Outcome.next (State.onLink_eq (Link.frameReceived_partial part))
  · exact congrArg Host.Outcome.next (State.onLink_eq (Link.gap_partial part))
  · exact congrArg Host.Outcome.next (State.onLink_eq (Link.gap_whole whole))

/-! ### A frame byte by byte (R185, R186) -/

/-- The bytes of a line, one more. -/
theorem State.fed_concat (s : State) (bytes : List Byte) (b : Byte) :
    s.fed (bytes ++ [b]) = (s.fed bytes).onLink (·.byteReceived b) := by
  unfold State.fed
  rw [List.foldl_append]
  rfl

/-- While bytes with an opening and a length in range come in, and no more than one frame of them, they are held. -/
theorem State.fed_held {s : State} (searching : s.link.rxBytes = []) {a b : Byte} {tail : List Byte}
    (good : goodLength (u16 a b) = true)
    (one : (startByte :: a :: b :: tail).length ≤ frameSize (u16 a b)) {bytes : List Byte}
    (h : bytes <+: startByte :: a :: b :: tail) :
    s.fed bytes = { s with link := { s.link with rxBytes := bytes } } := by
  induction bytes using List.reverseRecOn with
  | nil =>
    show s = _
    rw [← searching]
  | append_singleton held c ih =>
    have before : held <+: startByte :: a :: b :: tail := List.IsPrefix.trans ⟨[c], rfl⟩ h
    have short : held.length < frameSize (u16 a b) := by
      have := h.length_le.trans one
      rw [List.length_append] at this
      exact this
    have part : holdsFrame held = false := by
      unfold holdsFrame
      split
      · rename_i n length
        obtain rfl : u16 a b = n := Option.some.inj (lengthField_extends before length)
        exact decide_eq_false (Nat.not_le_of_lt short)
      · rfl
    have opens : hunt (held ++ [c]) = held ++ [c] := by
      obtain ⟨rest, start⟩ : ∃ rest, held ++ [c] = startByte :: rest := by
        obtain ⟨_, whole⟩ := h
        cases held with
        | nil => exact ⟨[], by rw [← (List.cons.inj whole).1]; rfl⟩
        | cons x held => exact ⟨held ++ [c], by rw [← (List.cons.inj whole).1]; rfl⟩
      rw [start] at h ⊢
      refine hunt_opens fun n length => ?_
      obtain rfl : u16 a b = n := Option.some.inj (lengthField_extends h length)
      exact good
    rw [State.fed_concat, ih before]
    exact State.onLink_eq ((Link.byteReceived_partial part c).trans (by rw [opens]))

/-- The bytes of a whole frame: start, length, body and check, and what the receiver reads in them (R185, R186). -/
theorem frameBytes_reads (kind tag : Byte) {payload : List Byte} (h : payload.length ≤ 638) :
    ∃ a b tail, frameBytes kind tag payload = startByte :: a :: b :: tail ∧
      goodLength (u16 a b) = true ∧ (startByte :: a :: b :: tail).length = frameSize (u16 a b) ∧
      checkedRequest (startByte :: a :: b :: tail) = some ⟨kind, tag, payload⟩ := by
  obtain ⟨a, b, length, size⟩ := be2_reads (n := payload.length + 2) (fitsU_iff.2 (by omega))
  obtain ⟨c0, c1, check, value⟩ :=
    be2_reads (n := (crc (a :: b :: kind :: tag :: payload)).toNat) (fitsU_iff.2 (BitVec.isLt _))
  refine ⟨a, b, (kind :: tag :: payload) ++ [c0, c1], ?_, ?_, ?_, ?_⟩
  · show startByte :: ((be2 (payload.length + 2) ++ kind :: tag :: payload) ++
      be2 (crc (be2 (payload.length + 2) ++ kind :: tag :: payload)).toNat) = _
    rw [length]
    show startByte :: ((a :: b :: kind :: tag :: payload) ++ be2 (crc (a :: b :: kind :: tag :: payload)).toNat) = _
    rw [check]
    rfl
  · rw [size]
    simp only [goodLength, Bool.and_eq_true, decide_eq_true_eq]
    omega
  · rw [size]
    simp [frameSize]
  · unfold checkedRequest lengthField
    simp [size, value]

/-- Settles O17: the frame is held byte by byte, and is good when it is whole. -/
theorem framesAreReceived : Obligations.FramesAreReceived := by
  intro kind tag payload s fits searching
  obtain ⟨a, b, tail, bytes, good, whole, checked⟩ := frameBytes_reads kind tag fits
  have held := State.fed_held searching good whole.le ⟨[], List.append_nil _⟩
  have holds : holdsFrame (startByte :: a :: b :: tail) = true := decide_eq_true whole.ge
  have nothing : hunt ((startByte :: a :: b :: tail).drop (frameSize (u16 a b))) = s.link.rxBytes := by
    rw [List.drop_of_length_le whole.le, searching]
    rfl
  rw [bytes, held]
  refine congrArg Host.Outcome.next (State.onLink_eq ((Link.frameReceived_good rfl holds checked).trans ?_))
  dsimp only
  rw [nothing]

end Sys2Proof.Machine
